-- ==== Sys2Proof/Word.lean ====
section
/-! DEFINITION. Sys2Proof/Word.lean: the word types of the block and its two bundles of ports.
Every value of the block is an unsigned word of a stated width (00_scope.md R15); a one-bit
signal or latch is a Bool, true = 1 = high. -/

namespace Sys2Proof

/-- A character: "one 8-bit character value, no other constraints" (00_scope.md R7). -/
abbrev Byte := BitVec 8

/-- The width of the shift register, SR_W = 10 (00_scope.md R10; DESIGN CHOICE among the widths
the rule allows, safe, log 2). -/
abbrev SrWord := BitVec 10

/-- Format CW, the host command word: rst at bit 9, req at bit 8, din at bits 7 to 0
(30_encoding.md R75). -/
abbrev CmdWord := BitVec 10

/-- Format EV, the timer event vector: ten at bit 2, cke at bit 1, match at bit 0
(30_encoding.md R76). -/
abbrev EvWord := BitVec 3

/-- Format RW, the response: acc at bit 2, busy at bit 1, txd at bit 0 (30_encoding.md R78). -/
abbrev RspWord := BitVec 3

/-- The input ports of one clock edge (43_cycle_step.md R160); `clk` is the edge itself. -/
structure Inputs where
  /-- 1 = INIT at this edge. -/
  rst : Bool
  /-- 1 = the host issues LOAD at this edge, 0 = POLL or nothing. -/
  req : Bool
  /-- The character of the LOAD. -/
  din : Byte
  /-- The timer-clock strobe. -/
  cke : Bool
  deriving DecidableEq, Repr, Inhabited

/-- The output ports of one clock cycle (43_cycle_step.md R163). -/
structure Response where
  /-- The LOAD of this cycle is accepted. -/
  acc : Bool
  /-- A frame is in flight. -/
  busy : Bool
  /-- The level of the transmit pin. -/
  txd : Bool
  deriving DecidableEq, Repr

end Sys2Proof
end

