-- ==== Sys2Proof/Config.lean ====
section
/-! DEFINITION. Sys2Proof/Config.lean: the parameters of the block (00_scope.md section 3) and
the one free value of the model. -/

namespace Sys2Proof

/-- What an instance of the block fixes before use and no operation changes: BIT_PERIOD_TICKS,
"the number of timer-clock periods in one bit period" (00_scope.md R11, R14). The spec leaves its
value open and makes it "an argument of the model" (D11); State carries it (log 1). -/
structure Config where
  bitPeriodTicks : Nat
  deriving DecidableEq, Repr

/-- FRAME_BITS = 10 (00_scope.md R8). -/
abbrev frameBitCount : Nat := 10

/-- STOP_POS = 9 (00_scope.md R8). -/
abbrev stopPos : Nat := 9

/-- IDLE_LEVEL = 1 (00_scope.md R9). -/
abbrev idleLevel : Bool := true

/-- CNT_BASE = 0 (00_scope.md R13). -/
abbrev cntBase : Nat := 0

/-- The instance State.reset stands for. DESIGN CHOICE (log 1), unsafe if a claim rests on the
number: the spec gives none, and no statement of this package uses it. -/
def Config.atReset : Config := { bitPeriodTicks := 3 }

/-- Free value: the port values the outside world presents at clock edge number `n` once the
queue of State.inputs is used up. The spec leaves them open ("All non-determinism of a run is in
the inputs", 43_cycle_step.md R167; 93_implementation_defined.md U10), so nothing is known of
them (log 4). -/
opaque Config.freeInputs : Nat → Inputs

/-- The relation of 00_scope.md R11 and 42_timing_source.md R149: `p` is a nearest integer to
`fClk / (prescaler × baud)`. At an exact half both neighbours satisfy it, since the spec does not
say which way it rounds (93_implementation_defined.md U3; log 12). No operation uses it. -/
abbrev Config.isNearestPeriod (fClk prescaler baud p : Nat) : Prop :=
  0 < prescaler * baud ∧
    2 * (p * (prescaler * baud)) ≤ 2 * fClk + prescaler * baud ∧
    2 * fClk ≤ 2 * (p * (prescaler * baud)) + prescaler * baud

end Sys2Proof
end

