-- ==== Sys2Proof/Syntax.lean ====
section
/-! DEFINITION. Sys2Proof/Syntax.lean: the seven operations of the block (30_encoding.md R80),
the two formats their words have, and the pair of operations one clock edge performs. -/

namespace Sys2Proof

/-- The operations (spec/opcode_table.json, one constructor a row). An ignored bit of a word is no
operand (30_encoding.md R84), so only LOAD carries one. -/
inductive Instr where
  /-- INIT, bring the block to its reset state (70_reset_and_hazards.md R210). -/
  | init
  /-- LOAD c, the transmit request (40_frame_loader.md R100). -/
  | load (c : Byte)
  /-- POLL, read the busy condition; also the no-operation (40_frame_loader.md R104). -/
  | poll
  /-- TICK, emit one bit (41_bit_emitter.md R120). -/
  | tick
  /-- CSTEP, count one timer-clock period (42_timing_source.md R142). -/
  | cstep
  /-- HOLD, armed and no timer clock this cycle (42_timing_source.md R145). -/
  | hold
  /-- IDLE, disarmed (42_timing_source.md R146). -/
  | idle
  deriving DecidableEq, Repr

/-- The side an operation is on, which is also the format of its word: host-side operations are
command words, timer-side ones event vectors (30_encoding.md R80). -/
inductive Side where
  | host
  | timer
  deriving DecidableEq, Repr

/-- The side column of 30_encoding.md R80. -/
def Instr.side : Instr → Side
  | .init => .host
  | .load _ => .host
  | .poll => .host
  | .tick => .timer
  | .cstep => .timer
  | .hold => .timer
  | .idle => .timer

/-- The mnemonic, as spec/opcode_table.json spells it. -/
def Instr.mnemonic : Instr → String
  | .init => "INIT"
  | .load _ => "LOAD"
  | .poll => "POLL"
  | .tick => "TICK"
  | .cstep => "CSTEP"
  | .hold => "HOLD"
  | .idle => "IDLE"

/-- A word of one of the two formats that select an operation (30_encoding.md R70). -/
inductive Code where
  | cw (w : CmdWord)
  | ev (w : EvWord)
  deriving DecidableEq, Repr

/-- What one clock edge performs: one host-side operation and, but for INIT, one timer-side
operation (30_encoding.md R80, R81). -/
structure CycleOps where
  host : Instr
  timer : Option Instr
  deriving DecidableEq, Repr

end Sys2Proof
end

