-- ==== Sys2Proof/WellFormed.lean ====
section
/-! DEFINITION. Sys2Proof/WellFormed.lean: the checks on the plain data of the model. An Instr
alone needs none: LOAD's operand type holds exactly the 256 legal characters (00_scope.md R7) and
no other operation has an operand. -/

namespace Sys2Proof

/-- BIT_PERIOD_TICKS is "an integer >= 1" (00_scope.md R11; 42_timing_source.md R152 refuses 0). -/
def Config.wf (c : Config) : Bool := decide (1 ≤ c.bitPeriodTicks)

/-- One clock edge performs a host-side operation, no timer-side operation beside INIT, and one
timer-side operation beside any other (30_encoding.md R80, R81). -/
def CycleOps.wf (o : CycleOps) : Bool :=
  match o.timer with
  | none => decide (o.host = .init)
  | some t => decide (o.host.side = .host) && decide (o.host ≠ .init) && decide (t.side = .timer)

end Sys2Proof
end

