-- ==== Sys2Proof/Decode.lean ====
section
/-! DEFINITION. Sys2Proof/Decode.lean: the two decoders and the encoder (30_encoding.md R80,
R81, R84), the table of patterns, and the byte layout the host's interface asks for. -/

namespace Sys2Proof

/-! ## Decoding a word -/

/-- The command word's operation: bit 9 is INIT, else bit 8 is LOAD with c = CW[7:0], else POLL
(30_encoding.md R81). -/
def decodeCW (w : CmdWord) : Instr :=
  if w.getLsbD 9 then .init
  else if w.getLsbD 8 then .load (w.extractLsb' 0 8)
  else .poll

/-- The event vector's operation: bit 2 = 0 is IDLE, bits 2,1 = 1,0 is HOLD, 110 is CSTEP, 111 is
TICK (30_encoding.md R81). -/
def decodeEV (w : EvWord) : Instr :=
  if w.getLsbD 2 then
    if w.getLsbD 1 then
      if w.getLsbD 0 then .tick else .cstep
    else .hold
  else .idle

/-- The operation of a word of either format. No word is illegal or reserved (30_encoding.md
R84). -/
def decode : Code → Instr
  | .cw w => decodeCW w
  | .ev w => decodeEV w

/-! ## Decoding bytes

The block has no bytes of program; the layout is the model's, to meet the host's interface:
DESIGN CHOICE, safe (log 8). A command word is two bytes, the less significant first, an event
vector is one byte. -/

/-- Why a list of bytes is no word of the block. -/
inductive DecodeError where
  /-- Neither one byte (EV) nor two (CW). -/
  | lengthOfNoFormat
  /-- A bit above the format's width is 1. -/
  | bitAboveTheWord
  deriving DecidableEq, Repr

/-- What decoding bytes gives. -/
inductive Decoded where
  | instr (i : Instr)
  | reject (e : DecodeError)
  deriving DecidableEq, Repr

/-- Total on any bytes. -/
def decodeBytes : List Byte → Decoded
  | [b] =>
    if b.toNat < 8 then .instr (decodeEV (b.setWidth 3)) else .reject .bitAboveTheWord
  | [lo, hi] =>
    if hi.toNat < 4 then .instr (decodeCW (hi.setWidth 2 ++ lo)) else .reject .bitAboveTheWord
  | _ => .reject .lengthOfNoFormat

/-- The bytes of an instruction of `nbits` bits (whole bytes) whose bits are `w`. -/
def layOut (nbits w : Nat) : List Byte :=
  if nbits ≤ 8 then [BitVec.ofNat 8 w]
  else if nbits ≤ 16 then [BitVec.ofNat 8 w, BitVec.ofNat 8 (w / 256)]
  else []

/-- The instruction the decoder reads from a word numbered as spec/opcode_table.json numbers it:
the three host rows are 10 bits (two bytes), the four timer rows 3 bits (one byte). A number that
does not fit its bytes is no word. -/
def decodeTableWord (nbits w : Nat) : Option Instr :=
  if w < 2 ^ (8 * (layOut nbits w).length) then
    match decodeBytes (layOut nbits w) with
    | .instr i => some i
    | .reject _ => none
  else none

/-! ## Encoding -/

/-- The word of an operation, its ignored bits 0, as the trace notation writes it
(30_encoding.md R80, R90). -/
def encode : Instr → Code
  | .init => .cw 0x200#10
  | .load c => .cw (0b01#2 ++ c)
  | .poll => .cw 0x000#10
  | .tick => .ev 0b111#3
  | .cstep => .ev 0b110#3
  | .hold => .ev 0b100#3
  | .idle => .ev 0b000#3

/-- The bytes of a word. -/
def Code.bytes : Code → List Byte
  | .cw w => [w.extractLsb' 0 8, (w.extractLsb' 8 2).setWidth 8]
  | .ev w => [w.setWidth 8]

/-! ## The table of patterns -/

/-- A row of 30_encoding.md R80: the operation's name and side, and which bits of its word are
looked at (`mask`) with which values (`pattern`). -/
structure Row where
  mnemonic : String
  side : Side
  pattern : Nat
  mask : Nat
  deriving DecidableEq, Repr

/-- The match / mask column of 30_encoding.md R80. -/
def rows : List Row :=
  [ { mnemonic := "INIT", side := .host, pattern := 0x200, mask := 0x200 },
    { mnemonic := "LOAD", side := .host, pattern := 0x100, mask := 0x300 },
    { mnemonic := "POLL", side := .host, pattern := 0x000, mask := 0x300 },
    { mnemonic := "TICK", side := .timer, pattern := 0b111, mask := 0b111 },
    { mnemonic := "CSTEP", side := .timer, pattern := 0b110, mask := 0b111 },
    { mnemonic := "HOLD", side := .timer, pattern := 0b100, mask := 0b110 },
    { mnemonic := "IDLE", side := .timer, pattern := 0b000, mask := 0b100 } ]

/-- The format's side and the word as a number. -/
def Code.side : Code → Side
  | .cw _ => .host
  | .ev _ => .timer

/-- The word as a number, bit 0 least significant. -/
def Code.toNat : Code → Nat
  | .cw w => w.toNat
  | .ev w => w.toNat

/-- A word matches a row of its own format on the bits the row looks at. -/
def Row.matchesCode (r : Row) (k : Code) : Bool :=
  decide (r.side = k.side) && decide (k.toNat &&& r.mask = r.pattern)

end Sys2Proof
end

