-- ==== Sys2Proof/Machine/State.lean ====
section
/-! DEFINITION. Sys2Proof/Machine/State.lean: the state of the block (10_state.md R20 to R24),
what the model carries beside it, the reasons a step could stop, and the state after reset. -/

namespace Sys2Proof.Machine

/-- Why the machine could stop with a fault: never. "No operation faults, none is refused and none
is stuck" (00_scope.md R18; 60_exceptions.md R180), so there is no constructor. -/
inductive Fault where
  deriving DecidableEq, Repr

/-- Why an instruction could have no meaning. -/
inductive Refusal where
  /-- Raised by an arm of exec whose instruction has no meaning yet. No arm raises it; safe. -/
  | notModelled (mnemonic : String)
  deriving DecidableEq, Repr

/-- The four state elements of the block, and after them what the model carries so that a step is
a function of one argument. -/
structure State where
  /-- SR, the Transmit Shift Register; 0 = idle, bit 0 is the next bit to send (R20). -/
  sr : SrWord
  /-- TXD, the level driven on the transmit pin (R21). -/
  txd : Bool
  /-- TEN, 1 = the timing source is armed (R22). -/
  ten : Bool
  /-- CNT, the timer-clock periods counted in the current bit period, below 2 ^ CNT_W (R23;
  log 3). -/
  cnt : Nat
  /-- The instance's parameter: not state of the block (R25), written by no step (log 1). -/
  cfg : Config
  /-- The port values of the coming clock edges, oldest first: not state of the block (R25;
  log 4). -/
  inputs : List Inputs
  /-- How many clock edges have been stepped: the index of the free port values (log 4). -/
  edges : Nat
  /-- What the host was answered at the last edge or host operation, the response RW (R78, R28):
  not state of the block and read by no operation (log 5). -/
  out : Response
  deriving DecidableEq, Repr

/-- The machine right after INIT, of an instance with parameter `cfg`: SR = 0, TXD = 1, TEN = 0,
CNT = 0, outputs busy = 0 and txd = 1 (70_reset_and_hazards.md R210, R213; log 6 for what stands
before the first INIT, logs 1, 4 and 5 for the rest). -/
def State.resetOf (cfg : Config) : State :=
  { sr := 0#10
    txd := idleLevel
    ten := false
    cnt := cntBase
    cfg := cfg
    inputs := []
    edges := 0
    out := { acc := false, busy := false, txd := idleLevel } }

/-- The machine right after reset. -/
def State.reset : State := State.resetOf Config.atReset

end Sys2Proof.Machine
end

