-- ==== Sys2Proof/Machine/Operands.lean ====
section
/-! DEFINITION. Sys2Proof/Machine/Operands.lean: operand assembly, the frame word and the wire
frame (30_encoding.md R71 to R74), and the widths that follow from the parameters. -/

namespace Sys2Proof.Machine

/-- `bitlen(v)`: 0 for v = 0, otherwise 1 + the index of the highest bit that is 1
(00_scope.md R16). -/
def bitlen (v : Nat) : Nat := if v = 0 then 0 else v.log2 + 1

/-- CNT_W: the smallest number of bits that holds BIT_PERIOD_TICKS - 1, and at least 1
(00_scope.md R12). -/
def cntW (c : Config) : Nat := max 1 (bitlen (c.bitPeriodTicks - 1))

/-- `frame(c) = (zext_SR_W(c) << 1) | (1 << 9)` (30_encoding.md R71). -/
def frame (c : Byte) : SrWord := (c.setWidth 10 <<< 1) ||| (1#10 <<< stopPos)

/-- The wire frame WF of a character, slot 0 first: TXD = frame(c)[t] in slot t
(30_encoding.md R73). -/
def wireFrame (c : Byte) : List Bool := (List.range frameBitCount).map (fun t => (frame c).getLsbD t)

/-- The levels SR still has to send, next one first: SR[0], SR[1], ..., as many as bitlen(SR)
(10_state.md R26, R20). -/
def pendingBits (v : SrWord) : List Bool := (List.range (bitlen v.toNat)).map (fun t => v.getLsbD t)

/-- The inverse of WF: the character of ten slot levels, if they are a well-formed frame
(30_encoding.md R74). -/
def wireDecode : List Bool → Option Byte
  | [w0, w1, w2, w3, w4, w5, w6, w7, w8, w9] =>
    if !w0 && w9 then
      some (BitVec.ofBool w8 ++ BitVec.ofBool w7 ++ BitVec.ofBool w6 ++ BitVec.ofBool w5 ++
        BitVec.ofBool w4 ++ BitVec.ofBool w3 ++ BitVec.ofBool w2 ++ BitVec.ofBool w1)
    else none
  | _ => none

/-- The equivalent reading of SR as a tagged state (10_state.md R34). -/
inductive Tagged where
  | idle
  | sending (remainingBits : Nat) (pendingValue : SrWord)
  deriving DecidableEq, Repr

/-- Idle when SR = 0, otherwise `Sending{bitlen(SR), SR}` (10_state.md R34). -/
def Tagged.ofSr (v : SrWord) : Tagged := if v = 0#10 then .idle else .sending (bitlen v.toNat) v

/-- The transitions of the tagged state (10_state.md R34). -/
def Tagged.after : Instr → Tagged → Tagged
  | .init, _ => .idle
  | .load c, .idle => .sending frameBitCount (frame c)
  | .tick, .sending n v => if n = 1 then .idle else .sending (n - 1) (v >>> 1)
  | .load _, .sending n v => .sending n v
  | .tick, .idle => .idle
  | .poll, t => t
  | .cstep, t => t
  | .hold, t => t
  | .idle, t => t

end Sys2Proof.Machine
end

