-- ==== Sys2Proof/Machine/Flags.lean ====
section
/-! DEFINITION. Sys2Proof/Machine/Flags.lean: the derived one-bit signals (10_state.md R27 to
R29) and the output ports (43_cycle_step.md R163). None is stored. -/

namespace Sys2Proof.Machine

/-- BUSY = (SR != 0) (10_state.md R27). -/
def State.busy (s : State) : Bool := decide (s.sr ≠ 0#10)

/-- The acceptance test of LOAD: "ACC = 1 exactly when SR was 0 at the LOAD" (10_state.md R28). -/
def State.accepts (s : State) : Bool := decide (s.sr = 0#10)

/-- MATCH = (CNT == BIT_PERIOD_TICKS - 1) (10_state.md R29). -/
def State.compareMatch (s : State) : Bool := decide (s.cnt = s.cfg.bitPeriodTicks - 1)

/-- remaining(SR) = bitlen(SR), the TICKs still to come before SR is 0 (10_state.md R26). -/
def State.remaining (s : State) : Nat := bitlen s.sr.toNat

/-- The outputs of a cycle, from the state before the edge; `acc` is the answer to the cycle's
LOAD and 0 if there is none (43_cycle_step.md R163; 30_encoding.md R78). -/
def State.outputs (s : State) (acc : Bool) : Response :=
  { acc := acc, busy := s.busy, txd := s.txd }

/-- Format RW, `{acc, busy, txd}` (30_encoding.md R78). -/
def rspWord (r : Response) : RspWord :=
  BitVec.ofBool r.acc ++ BitVec.ofBool r.busy ++ BitVec.ofBool r.txd

end Sys2Proof.Machine
end

