-- ==== Sys2Proof/Machine/Ops.lean ====
section
/-! DEFINITION. Sys2Proof/Machine/Ops.lean: the shared operations the meanings are written over.

There is no memory (20_memory.md R50), and no operation takes an exception or returns from one
(60_exceptions.md R180): taking the tick event "saves nothing and changes no mode" and its whole
effect is TICK (R188, R189). So what is shared is the writes of the four state elements, the
micro-operations ARM and DISARM, and the forming of the words the decoders read. -/

namespace Sys2Proof.Machine

/-! ## Writes of one element -/

/-- `SR <- v`. -/
def State.setSr (s : State) (v : SrWord) : State := { s with sr := v }

/-- `TXD <- b`. -/
def State.setTxd (s : State) (b : Bool) : State := { s with txd := b }

/-- `TEN <- b`. -/
def State.setTen (s : State) (b : Bool) : State := { s with ten := b }

/-- `CNT <- n`, n of CNT_W bits (00_scope.md R12): the one place where CNT's width is kept
(log 3). -/
def State.setCnt (s : State) (n : Nat) : State := { s with cnt := n % 2 ^ cntW s.cfg }

/-- `return v` of a host operation: what the host sees is recorded in `out` (00_scope.md R16;
43_cycle_step.md R163). -/
def State.respond (s : State) (acc : Bool) : State := { s with out := s.outputs acc }

/-! ## Micro-operations and the parts of the operations -/

/-- ARM: `TEN <- 1`; CNT is not written (42_timing_source.md R141). -/
def State.arm (s : State) : State := s.setTen true

/-- DISARM: `TEN <- 0; CNT <- CNT_BASE` (42_timing_source.md R147). -/
def State.disarm (s : State) : State := (s.setTen false).setCnt cntBase

/-- The reset state of every element (70_reset_and_hazards.md R210). -/
def State.resetElements (s : State) : State :=
  (((s.setSr 0#10).setTxd idleLevel).setTen false).setCnt cntBase

/-- `SR <- frame(c)` and ARM: the two effects of an accepted LOAD (40_frame_loader.md R100;
20_memory.md R57). -/
def State.loadFrame (s : State) (c : Byte) : State := (s.setSr (frame c)).arm

/-- Steps 1 to 4 of TICK and the counter's restart: the pin gets the old bit 0, SR is shifted
right by one, CNT is cleared (41_bit_emitter.md R120 to R122; 42_timing_source.md R144). -/
def State.shiftOut (s : State) : State :=
  ((s.setTxd (s.sr.getLsbD 0)).setSr (s.sr >>> 1)).setCnt cntBase

/-- Step 5 of TICK, on the shifted value: if SR is 0 the frame is complete and the timing source
is disarmed (41_bit_emitter.md R120, R123). -/
def State.endFrame (s : State) : State := if s.sr = 0#10 then s.disarm else s

/-- `CNT <- CNT + 1`, CNT_W bits wide (42_timing_source.md R142; 43_cycle_step.md R166). -/
def State.countUp (s : State) : State := s.setCnt (s.cnt + 1)

/-! ## The words of a clock edge -/

/-- The port values at the coming edge: the next of the queue, or free ones (log 4). -/
def State.ports (s : State) : Inputs :=
  match s.inputs with
  | p :: _ => p
  | [] => Config.freeInputs s.edges

/-- The edge has sampled its port values. -/
def State.passEdge (s : State) : State := { s with inputs := s.inputs.tail, edges := s.edges + 1 }

/-- CW = {rst, req, din} (30_encoding.md R75). -/
def Inputs.commandWord (p : Inputs) : CmdWord :=
  BitVec.ofBool p.rst ++ BitVec.ofBool p.req ++ p.din

/-- EV = {TEN, cke, MATCH}, from the state before the edge (30_encoding.md R76). -/
def State.eventVector (s : State) (cke : Bool) : EvWord :=
  BitVec.ofBool s.ten ++ BitVec.ofBool cke ++ BitVec.ofBool s.compareMatch

/-- The operations the two words select; beside INIT the event vector is not decoded
(30_encoding.md R80, R81). -/
def selectOps (cw : CmdWord) (ev : EvWord) : CycleOps :=
  match decodeCW cw with
  | .init => { host := .init, timer := none }
  | h => { host := h, timer := some (decodeEV ev) }

/-- The operations of the coming clock edge. -/
def State.cycleOps (s : State) : CycleOps :=
  selectOps (Inputs.commandWord s.ports) (s.eventVector s.ports.cke)

/-- Two operations of one edge take effect together: `t` is the state the timer side alone gives,
`h` the state the host side alone gives, both from the state before the edge. The host's writes
are those of an accepted LOAD, to SR and TEN, and they win; TXD and CNT are the timer side's
(43_cycle_step.md R166, R168; 20_memory.md R60; log 10). -/
def commit (t h : State) : State :=
  { t with
    sr := if h.out.acc then h.sr else t.sr
    ten := if h.out.acc then h.ten else t.ten
    out := h.out }

/-! ## Presenting a word (for the host's interface; log 7) -/

/-- The host presents the command word `w` at the coming edge, with no strobe. -/
def State.presentCommand (s : State) (w : CmdWord) : State :=
  { s with
    inputs :=
      { rst := w.getLsbD 9, req := w.getLsbD 8, din := w.extractLsb' 0 8, cke := false } ::
        s.inputs }

/-- A CNT for which MATCH is `m`: the present one if it already is. -/
def State.cntFor (s : State) (m : Bool) : Nat :=
  if s.compareMatch = m then s.cnt
  else if m then s.cfg.bitPeriodTicks - 1
  else if s.cfg.bitPeriodTicks - 1 = 0 then 1 else 0

/-- The event vector of the coming edge is `w`, and the host only polls: TEN, the strobe and CNT
are set to what forms it. -/
def State.presentEvent (s : State) (w : EvWord) : State :=
  { s with
    ten := w.getLsbD 2
    cnt := s.cntFor (w.getLsbD 0)
    inputs := { rst := false, req := false, din := 0#8, cke := w.getLsbD 1 } :: s.inputs }

/-- The word of `nbits` bits is what the coming edge selects its operation from. -/
def State.present (s : State) (nbits w : Nat) : State :=
  if nbits ≤ 8 then s.presentEvent (BitVec.ofNat 3 w) else s.presentCommand (BitVec.ofNat 10 w)

end Sys2Proof.Machine
end

