-- ==== Sys2Proof/Machine/BitEmitter.lean ====
section
/-! DEFINITION. Sys2Proof/Machine/BitEmitter.lean: TICK (41_bit_emitter.md). -/

namespace Sys2Proof.Machine

/-- TICK: the five steps as one atomic operation, applied as written in every state
(41_bit_emitter.md R120, R127; log 9). When it happens is decided by the event vector
(State.cycleOps) or, at the event level, by TEN (eventOp). -/
def execTick (s : State) : Host.Outcome State Fault Refusal :=
  .next s.shiftOut.endFrame

end Sys2Proof.Machine
end

