-- ==== Sys2Proof/Machine/FrameLoader.lean ====
section
/-! DEFINITION. Sys2Proof/Machine/FrameLoader.lean: LOAD and POLL (40_frame_loader.md). -/

namespace Sys2Proof.Machine

/-- LOAD c: one atomic test-and-set. SR = 0: SR <- frame(c), ARM, answer 1; otherwise answer 0 and
write nothing (40_frame_loader.md R100; 20_memory.md R56, R57). -/
def execLoad (c : Byte) (s : State) : Host.Outcome State Fault Refusal :=
  if s.accepts then .next ((s.respond true).loadFrame c) else .next (s.respond false)

/-- POLL: answer BUSY, write nothing (40_frame_loader.md R104). -/
def execPoll (s : State) : Host.Outcome State Fault Refusal :=
  .next (s.respond false)

end Sys2Proof.Machine
end

