-- ==== Sys2Proof/Machine/Initialisation.lean ====
section
/-! DEFINITION. Sys2Proof/Machine/Initialisation.lean: INIT (70_reset_and_hazards.md section 1). -/

namespace Sys2Proof.Machine

/-- INIT: every element gets its reset value, from any state; ACC = 0 in the cycle
(70_reset_and_hazards.md R210, R211). -/
def execInit (s : State) : Host.Outcome State Fault Refusal :=
  .next (s.respond false).resetElements

end Sys2Proof.Machine
end

