-- ==== Sys2Proof/Machine/TimingSource.lean ====
section
/-! DEFINITION. Sys2Proof/Machine/TimingSource.lean: CSTEP, HOLD and IDLE (42_timing_source.md). -/

namespace Sys2Proof.Machine

/-- CSTEP: count one timer-clock period (42_timing_source.md R142). -/
def execCstep (s : State) : Host.Outcome State Fault Refusal :=
  .next s.countUp

/-- HOLD: nothing (42_timing_source.md R145). -/
def execHold (s : State) : Host.Outcome State Fault Refusal :=
  .next s

/-- IDLE: nothing (42_timing_source.md R146). -/
def execIdle (s : State) : Host.Outcome State Fault Refusal :=
  .next s

end Sys2Proof.Machine
end

