-- ==== Sys2Proof/Machine/Dispatch.lean ====
section
/-! DEFINITION. Sys2Proof/Machine/Dispatch.lean: one arm per operation. -/

namespace Sys2Proof.Machine

def exec (i : Instr) (s : State) : Host.Outcome State Fault Refusal :=
  match i with
  | .init => Sys2Proof.Machine.execInit s
  | .load c => Sys2Proof.Machine.execLoad c s
  | .poll => Sys2Proof.Machine.execPoll s
  | .tick => Sys2Proof.Machine.execTick s
  | .cstep => Sys2Proof.Machine.execCstep s
  | .hold => Sys2Proof.Machine.execHold s
  | .idle => Sys2Proof.Machine.execIdle s

end Sys2Proof.Machine
end

