-- ==== Sys2Proof/Machine/Cycle.lean ====
section
/-! DEFINITION. Sys2Proof/Machine/Cycle.lean: the cycle level, what the block does at one clock
edge (43_cycle_step.md section 2). -/

namespace Sys2Proof.Machine

/-- The operations of one edge, both run from the same state `s` (20_memory.md R60). -/
def runOps (o : CycleOps) (s : State) : Host.Outcome State Fault Refusal :=
  match o.timer with
  | none => exec o.host s
  | some t =>
    match exec t s with
    | .next st =>
      match exec o.host s with
      | .next sh => .next (commit st sh)
      | .fault r => .fault r
      | .refused r => .refused r
    | .fault r => .fault r
    | .refused r => .refused r

/-- One clock edge: sample the ports, decode the two words from the state before the edge, run
what they select (43_cycle_step.md R166). -/
def clockEdge (s : State) : Host.Outcome State Fault Refusal :=
  runOps s.cycleOps s.passEdge

end Sys2Proof.Machine
end

