-- ==== Sys2Proof/Machine/Step.lean ====
section
/-! DEFINITION. Sys2Proof/Machine/Step.lean: one step of the machine is one clock edge. -/

namespace Sys2Proof.Machine

/-- One step: one clock edge (43_cycle_step.md R166). -/
def step (s : State) : Host.Outcome State Fault Refusal := clockEdge s

/-- `s` with the word `w` where the coming edge reads its operation (log 7). -/
def State.withFetchWord (s : State) (nbits w : Nat) : State := s.present nbits w

end Sys2Proof.Machine
end

