-- ==== Sys2Proof/Machine/EventLevel.lean ====
section
/-! DEFINITION. Sys2Proof/Machine/EventLevel.lean: the event level, one operation at a time in
some order (00_scope.md R5; 30_encoding.md R77), and how a clock edge maps onto it
(43_cycle_step.md R170). -/

namespace Sys2Proof.Machine

/-- The three state elements of the event level (00_scope.md R5 with D4; 43_cycle_step.md R170). -/
structure EventView where
  sr : SrWord
  txd : Bool
  ten : Bool
  deriving DecidableEq, Repr

/-- The event-level components of a state. -/
def State.eventView (s : State) : EventView := { sr := s.sr, txd := s.txd, ten := s.ten }

/-- The next state of an operation that has one. -/
def nextOf : Host.Outcome State Fault Refusal → Option State
  | .next s => some s
  | .fault _ => none
  | .refused _ => none

/-- One event-level operation. TICK has a step exactly when TEN = 1 (41_bit_emitter.md R124;
42_timing_source.md R151); CSTEP, HOLD and IDLE do not exist at this level (R77). -/
def eventOp (i : Instr) (s : State) : Option State :=
  match i with
  | .init => nextOf (exec .init s)
  | .load c => nextOf (exec (.load c) s)
  | .poll => nextOf (exec .poll s)
  | .tick => if s.ten then nextOf (exec .tick s) else none
  | .cstep => none
  | .hold => none
  | .idle => none

/-- A sequence of event-level operations; `none` if one of them has no step. -/
def eventRun : List Instr → State → Option State
  | [], s => some s
  | i :: is, s =>
    match eventOp i s with
    | some t => eventRun is t
    | none => none

/-- The event-level operations of one clock edge (43_cycle_step.md R170). -/
def State.edgeEvents (s : State) : List Instr :=
  if s.ports.rst then [.init]
  else
    (if s.ports.req then .load s.ports.din else .poll) ::
      (if s.ten && s.ports.cke && s.compareMatch then [.tick] else [])

/-- `n` TICKs in a row (30_encoding.md R90, `TICK * n`). -/
def ticks (n : Nat) : List Instr := List.replicate n .tick

/-- The block run over the clock edges of `ps`, each presented in its turn. -/
def runEdges : List Inputs → State → Option State
  | [], s => some s
  | p :: ps, s =>
    match nextOf (step { s with inputs := [p] }) with
    | some t => runEdges ps t
    | none => none

/-- How many of the edges carry a strobe of `cke` (42_timing_source.md R148). -/
def strobes : List Inputs → Nat
  | [] => 0
  | p :: ps => (if p.cke then 1 else 0) + strobes ps

end Sys2Proof.Machine
end

