-- ==== Sys2Proof/Machine/HostProc.lean ====
section
/-! DEFINITION. Sys2Proof/Machine/HostProc.lean: the document's host procedures, closed around
the block at the event level: SENDSTR with WAITIDLE (40_frame_loader.md R106; 30_encoding.md R91)
and the retry idiom (R109). The host is not part of State: it is an agent beside the block. -/

namespace Sys2Proof.Machine

/-- Where a host procedure stands. -/
inductive HostProc where
  /-- The procedure has returned; its host asks nothing (a POLL nobody looks at, R82). -/
  | done
  /-- SENDSTR, about to LOAD `c`, with `rest` after it. -/
  | load (c : Byte) (rest : List Byte)
  /-- SENDSTR in WAITIDLE, with `rest` still to send. -/
  | wait (rest : List Byte)
  /-- The retry idiom: LOAD `c` until it is accepted. -/
  | retry (c : Byte)
  deriving DecidableEq, Repr

/-- SENDSTR of a list of characters given with its length; none of them ends it (R106, R108(c)). -/
def HostProc.sendStr : List Byte → HostProc
  | [] => .done
  | c :: cs => .load c cs

/-- The operation the procedure issues next. -/
def HostProc.request : HostProc → Instr
  | .done => .poll
  | .load c _ => .load c
  | .wait _ => .poll
  | .retry c => .load c

/-- The procedure after its operation was answered `r`: SENDSTR does not look at LOAD's result,
WAITIDLE ends when POLL returns 0, the retry idiom when LOAD returns 1 (R106, R109). -/
def HostProc.answered (r : Response) : HostProc → HostProc
  | .done => .done
  | .load _ rest => .wait rest
  | .wait rest => if r.busy then .wait rest else .sendStr rest
  | .retry c => if r.acc then .done else .retry c

/-- A host procedure beside the block, and the levels TICK has written so far, oldest first. -/
structure Bench where
  proc : HostProc
  block : State
  wire : List Bool
  deriving DecidableEq, Repr

/-- The ports the procedure drives in one clock cycle (43_cycle_step.md R169). -/
def HostProc.ports (cke : Bool) : HostProc → Inputs
  | .done => { rst := false, req := false, din := 0#8, cke := cke }
  | .load c _ => { rst := false, req := true, din := c, cke := cke }
  | .wait _ => { rst := false, req := false, din := 0#8, cke := cke }
  | .retry c => { rst := false, req := true, din := c, cke := cke }

/-- The block with the procedure's port values, and the strobe, at its coming edge. -/
def Bench.driven (b : Bench) (cke : Bool) : State :=
  { b.block with inputs := [b.proc.ports cke] }

/-- One clock edge with the procedure on the ports: it issues an operation in every cycle (DESIGN
CHOICE, log 13), reads `acc` and `busy` in that cycle, and a level reaches the wire in the edges that
perform a TICK. -/
def Bench.edge (b : Bench) (cke : Bool) : Bench :=
  match nextOf (step (b.driven cke)) with
  | some t =>
    { proc := b.proc.answered t.out
      block := t
      wire := if (b.driven cke).cycleOps.timer = some .tick then b.wire ++ [t.txd] else b.wire }
  | none => b

/-- Whose turn it is: all operations of all agents form one total order (20_memory.md R59). -/
inductive Turn where
  | host
  | timer
  deriving DecidableEq, Repr

/-- One turn. The timer's turn is a TICK if TICK is enabled and nothing otherwise. -/
def Bench.turn (b : Bench) : Turn → Bench
  | .host =>
    match eventOp b.proc.request b.block with
    | some t => { b with proc := b.proc.answered t.out, block := t }
    | none => b
  | .timer =>
    match eventOp .tick b.block with
    | some t => { b with block := t, wire := b.wire ++ [t.txd] }
    | none => b

/-- A schedule of turns. -/
def Bench.run : List Turn → Bench → Bench
  | [], b => b
  | t :: ts, b => Bench.run ts (b.turn t)

end Sys2Proof.Machine
end

