-- ==== Sys2Proof/Safety.lean ====
section
/-! DEFINITION. Sys2Proof/Safety.lean: what the reachable states look like (10_state.md
section 4), and the spec's own step function written out (43_cycle_step.md R166), in the terms
the statements use. -/

namespace Sys2Proof.Machine

/-- "SR is either 0 or `frame(c) >> k` for some character c in 0..255 and some k in 0..9"
(10_state.md R31). -/
def ReachableSr (v : SrWord) : Prop := v = 0#10 ∨ ∃ c : Byte, ∃ k : Nat, k ≤ 9 ∧ v = frame c >>> k

/-- What holds in every reachable state, between operations (10_state.md R30 to R33; 00_scope.md
R11). -/
structure State.Inv (s : State) : Prop where
  /-- BIT_PERIOD_TICKS >= 1 (R11). -/
  period_pos : s.cfg.wf = true
  /-- SR == 0 if and only if TEN == 0 (R30). -/
  idle_iff : s.sr = 0#10 ↔ s.ten = false
  /-- The reachable values of SR (R31). -/
  sr_reachable : ReachableSr s.sr
  /-- CNT < BIT_PERIOD_TICKS (R32). -/
  cnt_lt : s.cnt < s.cfg.bitPeriodTicks
  /-- TEN == 0 implies CNT == 0 (R32). -/
  cnt_idle : s.ten = false → s.cnt = 0
  /-- SR == 0 implies TXD == 1 (R33). -/
  idle_high : s.sr = 0#10 → s.txd = true
  /-- "TXD is also 1 from an accepted LOAD until the first TICK after it" (R33): in that time, and
  only then, bit 9 of SR is 1. -/
  fresh_high : s.sr.getLsbD 9 = true → s.txd = true

/-- The state S of 43_cycle_step.md R166: the four elements and nothing of the model's own. -/
structure Elements where
  sr : SrWord
  txd : Bool
  ten : Bool
  cnt : Nat
  deriving DecidableEq, Repr

/-- The four elements of a state. -/
def State.elements (s : State) : Elements :=
  { sr := s.sr, txd := s.txd, ten := s.ten, cnt := s.cnt }

/-- The pseudocode of 43_cycle_step.md R166, line for line: `P` is BIT_PERIOD_TICKS and `w` is
CNT_W. It is not used by the machine; a statement says that the machine's step is this. -/
def edgeByR166 (P w : Nat) (S : Elements) (p : Inputs) : Elements × Response :=
  let busy : Bool := decide (S.sr ≠ 0#10)
  let acc : Bool := !p.rst && p.req && decide (S.sr = 0#10)
  let answer : Response := { acc := acc, busy := busy, txd := S.txd }
  if p.rst then ({ sr := 0#10, txd := true, ten := false, cnt := 0 }, answer)
  else
    let timer : Elements :=
      if S.ten && p.cke && decide (S.cnt = P - 1) then
        { sr := S.sr >>> 1
          txd := S.sr.getLsbD 0
          ten := if S.sr >>> 1 = 0#10 then false else S.ten
          cnt := 0 }
      else if S.ten && p.cke then { S with cnt := (S.cnt + 1) % 2 ^ w }
      else S
    if acc then ({ timer with sr := frame p.din, ten := true }, answer) else (timer, answer)

/-- A stretch of a schedule in which each agent gets a turn: the fairness of
70_reset_and_hazards.md R226 as a bound. -/
def FairRound (r : List Turn) : Prop := Turn.host ∈ r ∧ Turn.timer ∈ r

end Sys2Proof.Machine
end

