-- ==== Sys2Proof/Certificates/Slice0/Obligations.lean ====
section
/-! DEFINITION. Sys2Proof/Certificates/Slice0/Obligations.lean: the statements for the provers. A
rule the spec marks as its own decision or derivation is cited as a section, not as a rule, and
the docstring names the decision. -/

open Sys2Proof Sys2Proof.Machine

/-! ## The operations: result, frame and completion, one by one -/

/-- INIT, from any state: the four elements get their reset values and nothing of the model's own
changes but the answer. 70_reset_and_hazards.md section 1 (R210, the spec's decision D7; `acc` = 0
in the cycle is D18). -/
def Obligations.InitBringsResetState : Prop :=
  ∀ s : State,
    exec .init s =
      .next { s with
        sr := 0#10
        txd := true
        ten := false
        cnt := 0
        out := { acc := false, busy := decide (s.sr ≠ 0#10), txd := s.txd } }

/-- R100: LOAD is an atomic test-and-set on SR. Both cases, the flags, the frame word, the
encoding and the worked example; TXD and CNT are never written, SR and TEN only when accepted. -/
def Obligations.LoadIsAtomicTestAndSet : Prop :=
  (∀ c : Byte, decodeCW (0b01#2 ++ c) = .load c) ∧
  (∀ (s : State) (c : Byte), s.sr = 0#10 →
    exec (.load c) s =
      .next { s with
        sr := (c.setWidth 10 <<< 1) ||| (1#10 <<< 9)
        ten := true
        out := { acc := true, busy := false, txd := s.txd } }) ∧
  (∀ (s : State) (c : Byte), s.sr ≠ 0#10 →
    exec (.load c) s =
      .next { s with out := { acc := false, busy := true, txd := s.txd } }) ∧
  (∀ c : Byte, ((c.setWidth 10 <<< 1) ||| (1#10 <<< 9) : SrWord) ≠ 0#10) ∧
  (∀ cfg : Config, ∃ t, exec (.load 0x41#8) (State.resetOf cfg) = .next t ∧
    t.elements = { sr := 0x282#10, txd := true, ten := true, cnt := 0 } ∧ t.out.acc = true)

/-- R102: a LOAD with SR = 0 always succeeds, whatever the character, TXD, TEN and CNT are, and a
LOAD straight after the TICK that drained the frame before it is accepted. -/
def Obligations.AcceptWhenIdle : Prop :=
  (∀ (s : State) (c : Byte), s.sr = 0#10 →
    ∃ t, exec (.load c) s = .next t ∧ t.out.acc = true ∧
      t.sr = (c.setWidth 10 <<< 1) ||| (1#10 <<< 9)) ∧
  (∀ (s t : State) (c : Byte), exec .tick s = .next t → t.sr = 0#10 →
    ∃ u, exec (.load c) t = .next u ∧ u.out.acc = true ∧
      u.sr = (c.setWidth 10 <<< 1) ||| (1#10 <<< 9))

/-- R101: a LOAD while SR is nonzero leaves the block unchanged and reports rejection, for every
nonzero SR and every character, and whatever operations follow go on exactly as if the LOAD had not
happened. -/
def Obligations.RejectWhenBusy : Prop :=
  ∀ (s : State) (c : Byte), s.sr ≠ 0#10 →
    (∃ t, exec (.load c) s = .next t ∧ t.elements = s.elements ∧ t.out.acc = false) ∧
    ∀ ops : List Instr,
      (eventRun (.load c :: ops) s).map State.elements = (eventRun ops s).map State.elements

/-- POLL answers BUSY and writes nothing. 40_frame_loader.md section 2 (R104; POLL as an operation
is the spec's decision D16). -/
def Obligations.PollAnswersBusy : Prop :=
  ∀ s : State,
    exec .poll s =
      .next { s with out := { acc := false, busy := decide (s.sr ≠ 0#10), txd := s.txd } }

/-- R120: TICK. The pin gets the old bit 0, SR is shifted right by one, CNT is cleared, and TEN is
cleared if the shifted value is 0; BUSY is whether the shifted value is nonzero; at the event level
it has a step exactly when TEN = 1; the encoding and the two worked examples. -/
def Obligations.TickEmitsOneBit : Prop :=
  decodeEV 0b111#3 = .tick ∧
  (∀ s : State,
    exec .tick s =
      .next { s with
        txd := s.sr.getLsbD 0
        sr := s.sr >>> 1
        cnt := 0
        ten := if s.sr >>> 1 = 0#10 then false else s.ten }) ∧
  (∀ s t : State, exec .tick s = .next t → t.busy = decide (s.sr >>> 1 ≠ 0#10)) ∧
  (∀ s : State, (eventOp .tick s).isSome = s.ten) ∧
  (∀ s : State, s.sr = 0x282#10 → s.ten = true → s.txd = true → ∃ t, exec .tick s = .next t ∧
    t.elements = { sr := 0x141#10, txd := false, ten := true, cnt := 0 }) ∧
  (∀ s : State, s.sr = 0x001#10 → s.ten = true → ∃ t, exec .tick s = .next t ∧
    t.elements = { sr := 0#10, txd := true, ten := false, cnt := 0 })

/-- R121: the shift is logical, by exactly one place: every bit moves one place down, a 0 enters at
the top, and the bit shifted out is kept only as the new TXD. -/
def Obligations.TickShiftIsLogical : Prop :=
  ∀ s : State, ∃ t, exec .tick s = .next t ∧
    (∀ i : Nat, i < 9 → t.sr.getLsbD i = s.sr.getLsbD (i + 1)) ∧
    t.sr.getLsbD 9 = false ∧
    t.sr.toNat = s.sr.toNat / 2 ∧
    t.txd = s.sr.getLsbD 0

/-- CSTEP counts one timer-clock period, in CNT_W bits, and writes CNT only. 42_timing_source.md
section 2 (R142, decision D9) and 43_cycle_step.md section 2 (R166, decision D5, for the width). -/
def Obligations.CstepCounts : Prop :=
  ∀ s : State, exec .cstep s = .next { s with cnt := (s.cnt + 1) % 2 ^ cntW s.cfg }

/-- HOLD writes nothing, and is what an armed block does in an edge without a strobe, MATCH not
looked at. 42_timing_source.md section 2 (R145, decision D10). -/
def Obligations.HoldChangesNothing : Prop :=
  (∀ s : State, exec .hold s = .next s) ∧
  (∀ s : State, s.ten = true → decodeEV (s.eventVector false) = .hold)

/-- R146: IDLE writes nothing; it is the operation of every event vector with TEN = 0, so in a
disarmed block the counter does not run and stays at 0, and the timer side of an accepted LOAD's
own cycle is IDLE. -/
def Obligations.IdleChangesNothing : Prop :=
  (∀ s : State, exec .idle s = .next s) ∧
  (∀ w : EvWord, w.getLsbD 2 = false → decodeEV w = .idle) ∧
  (∀ (s : State) (cke : Bool), s.ten = false → decodeEV (s.eventVector cke) = .idle) ∧
  (∀ s t : State, s.ten = false → s.cnt = 0 → step s = .next t → t.cnt = 0) ∧
  (∀ s t : State, s.Inv → step s = .next t → t.out.acc = true → s.cycleOps.timer = some .idle)

/-- R180: no operation can fault: there is no fault to raise, and every operation in every state
gives a next state. -/
def Obligations.NoOperationFaults : Prop :=
  (∀ _ : Fault, False) ∧
  (∀ (i : Instr) (s : State), ∃ t, exec i s = .next t)

/-- R57: POLL can be repeated any number of times with no effect on the block; a rejected LOAD
changes nothing; an accepted LOAD changes SR and TEN only and a second identical one straight after
it is rejected; TICK changes SR, TXD, CNT and possibly TEN. -/
def Obligations.SideEffectsOfEachOperation : Prop :=
  (∀ (n : Nat) (s : State), ∃ t, eventRun (List.replicate n .poll) s = some t ∧
    t = { s with out := t.out } ∧ (0 < n → t.out.busy = decide (s.sr ≠ 0#10))) ∧
  (∀ (s : State) (c : Byte), s.sr ≠ 0#10 → ∃ t, exec (.load c) s = .next t ∧
    t = { s with out := t.out }) ∧
  (∀ (s : State) (c : Byte), s.sr = 0#10 → ∃ t u, exec (.load c) s = .next t ∧
    t = { s with sr := frame c, ten := true, out := t.out } ∧
    exec (.load c) t = .next u ∧ u.out.acc = false ∧ u.elements = t.elements) ∧
  (∀ s : State, ∃ t, exec .tick s = .next t ∧
    t = { s with sr := t.sr, txd := t.txd, cnt := t.cnt, ten := t.ten })

/-- Which operation may write which element: the "written by" column of 10_state.md section 1, and
nothing of the model's own but the answer to a host operation. -/
def Obligations.OnlyNamedOperationsWrite : Prop :=
  ∀ (i : Instr) (s t : State), exec i s = .next t →
    (t.sr ≠ s.sr → i = .init ∨ i = .tick ∨ ∃ c, i = .load c ∧ s.sr = 0#10) ∧
    (t.txd ≠ s.txd → i = .init ∨ i = .tick) ∧
    (t.ten ≠ s.ten → i = .init ∨ (i = .tick ∧ t.sr = 0#10) ∨ ∃ c, i = .load c ∧ s.sr = 0#10) ∧
    (t.cnt ≠ s.cnt → i = .init ∨ i = .tick ∨ i = .cstep) ∧
    (t.out ≠ s.out → i.side = .host) ∧
    t.cfg = s.cfg ∧ t.inputs = s.inputs ∧ t.edges = s.edges

/-- ARM and DISARM happen only inside an accepted LOAD and inside the TICK (or the INIT) that leaves
SR = 0; ARM does not write CNT and DISARM leaves CNT = 0. 42_timing_source.md section 1 (R141; R147
with decision D8) and 30_encoding.md section 3 (R83). -/
def Obligations.WhoArmsAndDisarms : Prop :=
  (∀ (i : Instr) (s t : State), exec i s = .next t → s.ten = false → t.ten = true →
    (∃ c, i = .load c) ∧ s.sr = 0#10 ∧ t.cnt = s.cnt) ∧
  (∀ (i : Instr) (s t : State), exec i s = .next t → s.ten = true → t.ten = false →
    (i = .init ∨ i = .tick) ∧ t.sr = 0#10 ∧ t.cnt = 0)

/-- R129: a frame cannot be cancelled. No host operation other than INIT writes SR while it is
nonzero, none clears TEN, and whatever host operations but INIT come between, SR has been shifted
exactly once per TICK for as long as the frame lasts. -/
def Obligations.FrameCannotBeCancelled : Prop :=
  (∀ (i : Instr) (s t : State), i.side = .host → i ≠ .init → exec i s = .next t →
    (s.sr ≠ 0#10 → t.sr = s.sr) ∧ (s.ten = true → t.ten = true)) ∧
  (∀ (ops : List Instr) (s t : State), s.Inv → .init ∉ ops → eventRun ops s = some t →
    ops.count .tick < s.remaining → t.sr = s.sr >>> ops.count .tick ∧ t.ten = true)

/-- R124: TICK has no step while TEN = 0, the event vector is then not 111 and no edge performs a
TICK, so the pin keeps the level it had; and the host cannot cause one: no host operation but INIT moves the pin. -/
def Obligations.TickOnlyWhileArmed : Prop :=
  (∀ (s : State) (cke : Bool), s.ten = false →
    eventOp .tick s = none ∧ s.eventVector cke ≠ 0b111#3 ∧ s.cycleOps.timer ≠ some .tick) ∧
  (∀ s t : State, s.ten = false → s.ports.rst = false → step s = .next t → t.txd = s.txd) ∧
  (∀ (i : Instr) (s t : State), i.side = .host → i ≠ .init → exec i s = .next t → t.txd = s.txd)

/-- The host sees only whether SR is 0: what any host operation answers in `acc` and `busy` is the
same in two states that agree on that. 10_state.md section 6 (R35), 40_frame_loader.md section 2
(R104: "never the bits of SR"). -/
def Obligations.HostSeesOnlyWhetherShiftRegisterIsZero : Prop :=
  ∀ (i : Instr) (s t : State), i.side = .host → (s.sr = 0#10 ↔ t.sr = 0#10) →
    ∃ s' t', exec i s = .next s' ∧ exec i t = .next t' ∧
      s'.out.acc = t'.out.acc ∧ s'.out.busy = t'.out.busy

/-! ## Encodings -/

/-- R71 and R72: the frame word. The operand assembly, its two equivalent forms, and the fields:
START = 0 at bit 0, c[i] at bit i + 1, STOP = 1 at bit 9; shifted k places, the same fields stand k
places lower. -/
def Obligations.FrameWordLayout : Prop :=
  (∀ c : Byte, frame c = (c.setWidth 10 <<< 1) ||| (1#10 <<< 9)) ∧
  (∀ c : Byte, frame c = 1#1 ++ c ++ 0#1) ∧
  (∀ c : Byte, (frame c).toNat = 0x200 + 2 * c.toNat) ∧
  (∀ c : Byte, (frame c).getLsbD 0 = false ∧ (frame c).getLsbD 9 = true ∧
    ∀ i : Nat, i < 8 → (frame c).getLsbD (i + 1) = c.getLsbD i) ∧
  (∀ (c : Byte) (k i : Nat), (frame c >>> k).getLsbD i = (frame c).getLsbD (k + i)) ∧
  frame 0x00#8 = 0x200#10 ∧ frame 0x41#8 = 0x282#10 ∧ frame 0xFF#8 = 0x3FE#10

/-- The wire frame decodes to its character, and ten levels decode only if they are the wire frame
of what they decode to. 30_encoding.md section 1 (R73; R74, derived by the spec). -/
def Obligations.WireFrameDecodes : Prop :=
  (∀ c : Byte, wireDecode (wireFrame c) = some c) ∧
  (∀ (ws : List Bool) (c : Byte), wireDecode ws = some c → ws = wireFrame c) ∧
  (∀ ws : List Bool, (wireDecode ws).isSome = true ↔
    ws.length = 10 ∧ ws[0]? = some false ∧ ws[9]? = some true)

/-- A few words written out from 95_test_vectors.md section 2.6. -/
def Obligations.SpecWordsDecode : Prop :=
  decodeCW 0x000#10 = .poll ∧ decodeCW 0x0FF#10 = .poll ∧
  decodeCW 0x100#10 = .load 0x00#8 ∧ decodeCW 0x141#10 = .load 0x41#8 ∧
  decodeCW 0x1FF#10 = .load 0xFF#8 ∧
  decodeCW 0x200#10 = .init ∧ decodeCW 0x300#10 = .init ∧ decodeCW 0x3A5#10 = .init ∧
  decodeEV 0b000#3 = .idle ∧ decodeEV 0b011#3 = .idle ∧
  decodeEV 0b100#3 = .hold ∧ decodeEV 0b101#3 = .hold ∧
  decodeEV 0b110#3 = .cstep ∧ decodeEV 0b111#3 = .tick

/-- Both decoders are total and unambiguous: of each of the 1024 + 8 words exactly one row of the
operation map matches, and it is the row of what the word decodes to. 30_encoding.md section 3
(R80, decision D17; R81, derived by the spec). -/
def Obligations.DecodersFollowTheTable : Prop :=
  ∀ k : Code,
    (rows.filter (fun r => r.matchesCode k)).map Row.mnemonic = [(decode k).mnemonic] ∧
    (decode k).side = k.side

/-- Decode and encode agree, for every operation and every character; every word decodes to an
operation whose word matches the same row, and a LOAD's word is recovered whole; on bytes the
decoder reads exactly the byte layouts of words. 30_encoding.md section 3 (R80, R84: the words are
the spec's decision D17); the byte layout is the model's choice (log 8). -/
def Obligations.DecodeEncodeAgree : Prop :=
  (∀ i : Instr, decode (encode i) = i ∧ decodeBytes (encode i).bytes = .instr i) ∧
  (∀ k : Code, ∃ r ∈ rows, r.matchesCode k = true ∧ r.matchesCode (encode (decode k)) = true) ∧
  (∀ (k : Code) (c : Byte), decode k = .load c → encode (.load c) = k) ∧
  (∀ (bs : List Byte) (i : Instr), decodeBytes bs = .instr i ↔ ∃ k : Code, k.bytes = bs ∧ decode k = i)

/-- An ignored bit has no effect: a step gives the same state for two port values that differ only
in what the edge does not look at. 30_encoding.md section 4 (R84, decision D17). -/
def Obligations.IgnoredBitsHaveNoEffect : Prop :=
  ∀ (s : State) (p q : Inputs) (ps : List Inputs),
    p.rst = q.rst →
    (p.rst = false → p.req = q.req ∧ (p.req = true → p.din = q.din) ∧
      (s.ten = true → p.cke = q.cke)) →
    step { s with inputs := p :: ps } = step { s with inputs := q :: ps }

/-! ## Reset and the step -/

/-- The reset state: SR = 0, TXD = 1, TEN = 0, CNT = 0, outputs busy = 0 and txd = 1, for every
value of the parameter. 70_reset_and_hazards.md section 1 (R213, derived by the spec). -/
def Obligations.ResetStateValues : Prop :=
  (∀ cfg : Config,
    (State.resetOf cfg).elements = { sr := 0#10, txd := true, ten := false, cnt := 0 } ∧
    (State.resetOf cfg).busy = false ∧ (State.resetOf cfg).cfg = cfg) ∧
  State.reset = State.resetOf Config.atReset

/-- The invariant holds at reset, for every legal value of the parameter. -/
def Obligations.ResetMeetsInvariant : Prop :=
  (∀ cfg : Config, cfg.wf = true → (State.resetOf cfg).Inv) ∧ State.reset.Inv

/-- A step runs the decoded operations. The two words are the ports and {TEN, cke, MATCH}; INIT runs
alone; otherwise both operations run from the same state, the one in which the edge has been
counted and its port values used up, and take effect together. 43_cycle_step.md section 2 (R166,
decision D5), 30_encoding.md section 3 (R81). -/
def Obligations.StepRunsDecodedOperations : Prop :=
  (∀ s : State, decodeCW (Inputs.commandWord s.ports) = .init → step s = exec .init s.passEdge) ∧
  (∀ (s sh st : State) (h t : Instr),
    decodeCW (Inputs.commandWord s.ports) = h → h ≠ .init →
    decodeEV (s.eventVector s.ports.cke) = t →
    exec h s.passEdge = .next sh → exec t s.passEdge = .next st →
    step s =
      .next { st with
        sr := if sh.out.acc then sh.sr else st.sr
        ten := if sh.out.acc then sh.ten else st.ten
        out := sh.out })

/-- A word put where the coming edge reads its operation is the operation that runs: a host
operation alone, a timer operation beside a POLL. How a word is put there is the model's choice
(log 7); what decoding and executing it mean is 30_encoding.md section 3. -/
def Obligations.FetchWordRunsDecodedOperation : Prop :=
  ∀ (s : State) (nbits w : Nat) (i : Instr), decodeTableWord nbits w = some i →
    (i.side = .host → step (s.withFetchWord nbits w) = exec i { s with edges := s.edges + 1 }) ∧
    (i.side = .timer → ∃ t, exec i (s.withFetchWord nbits w).passEdge = .next t ∧
      step (s.withFetchWord nbits w) =
        .next { t with out := { acc := false, busy := decide (s.sr ≠ 0#10), txd := s.txd } })

/-- The machine's step is the spec's step function, in every state, reachable or not, and for every
port value; the parameter is carried on unchanged. 43_cycle_step.md section 2 (R166, decision D5,
R168, decision D6; `edgeByR166` is its pseudocode line for line). -/
def Obligations.StepIsTheSpecsStepFunction : Prop :=
  ∀ s : State, ∃ t, step s = .next t ∧
    (t.elements, t.out) = edgeByR166 s.cfg.bitPeriodTicks (cntW s.cfg) s.elements s.ports ∧
    t.cfg = s.cfg ∧ t.inputs = s.inputs.tail ∧ t.edges = s.edges + 1

/-- The outputs of a cycle, and the response word {acc, busy, txd} they make. 43_cycle_step.md
section 1 (R163, decisions D4 and D21), 30_encoding.md section 2 (R78). -/
def Obligations.OutputsOfACycle : Prop :=
  ∀ s : State, ∃ t, step s = .next t ∧
    t.out =
      { acc := !s.ports.rst && s.ports.req && decide (s.sr = 0#10)
        busy := decide (s.sr ≠ 0#10)
        txd := s.txd } ∧
    (rspWord t.out).getLsbD 2 = t.out.acc ∧
    (rspWord t.out).getLsbD 1 = t.out.busy ∧
    (rspWord t.out).getLsbD 0 = t.out.txd

/-- INIT excludes every other operation of its cycle: with rst = 1 the next state is the reset state
and acc = 0 whatever req, din, cke, TEN and CNT are. 70_reset_and_hazards.md section 1 (R211,
decision D18; R212, decision D23). -/
def Obligations.InitExcludesEveryOtherOperation : Prop :=
  ∀ s : State, s.ports.rst = true → ∃ t, step s = .next t ∧
    t.elements = { sr := 0#10, txd := true, ten := false, cnt := 0 } ∧ t.out.acc = false ∧
    s.cycleOps = { host := .init, timer := none }

/-- When each timer-side operation happens; every edge performs a legal pair of operations; the pin
moves only in an edge with a TICK or an INIT. 42_timing_source.md section 2 (R143, decisions D9 and
D12; R142, R145, R146) and 41_bit_emitter.md (R122, derived by the spec). -/
def Obligations.TimerSideOperationOfAnEdge : Prop :=
  ∀ s : State,
    (s.cycleOps.timer = some .tick ↔ s.ports.rst = false ∧ s.ten = true ∧ s.ports.cke = true ∧
      s.cnt = s.cfg.bitPeriodTicks - 1) ∧
    (s.cycleOps.timer = some .cstep ↔ s.ports.rst = false ∧ s.ten = true ∧ s.ports.cke = true ∧
      s.cnt ≠ s.cfg.bitPeriodTicks - 1) ∧
    (s.cycleOps.timer = some .hold ↔ s.ports.rst = false ∧ s.ten = true ∧ s.ports.cke = false) ∧
    (s.cycleOps.timer = some .idle ↔ s.ports.rst = false ∧ s.ten = false) ∧
    s.cycleOps.wf = true ∧
    (∀ t, step s = .next t → t.txd ≠ s.txd →
      s.cycleOps.host = .init ∨ s.cycleOps.timer = some .tick)

/-- A LOAD in the cycle of the draining TICK is rejected and the block is idle after it; the one in
the next cycle is accepted. 20_memory.md section 6 (R60, decision D5). -/
def Obligations.LoadInTheDrainingCycleIsRejected : Prop :=
  ∀ (s : State) (p q : Inputs) (ps : List Inputs), s.Inv → s.sr = 1#10 →
    s.cnt = s.cfg.bitPeriodTicks - 1 → s.inputs = p :: q :: ps →
    p.rst = false → p.req = true → p.cke = true → q.rst = false → q.req = true →
    ∃ t u, step s = .next t ∧ t.out.acc = false ∧ t.out.busy = true ∧
      t.elements = { sr := 0#10, txd := true, ten := false, cnt := 0 } ∧
      step t = .next u ∧ u.out.acc = true ∧
      u.elements = { sr := frame q.din, txd := true, ten := true, cnt := 0 }

/-! ## Invariants -/

/-- Every step keeps the invariant, from every state that meets it. 10_state.md section 4 (R30 to
R33, derived by the spec). -/
def Obligations.StepKeepsInvariant : Prop :=
  ∀ s t : State, s.Inv → step s = .next t → t.Inv

/-- Every event-level operation keeps the invariant, from every state that meets it. -/
def Obligations.EventOperationKeepsInvariant : Prop :=
  ∀ (i : Instr) (s t : State), s.Inv → eventOp i s = some t → t.Inv

/-- Every state that some sequence of operations starting with INIT leads to meets the invariant,
from whatever stood before the INIT, at both levels. 10_state.md section 4 (its first sentence, and
the document's property 1 in R30). -/
def Obligations.ReachableStatesMeetInvariant : Prop :=
  (∀ (ops : List Instr) (s t : State), s.cfg.wf = true →
    eventRun (.init :: ops) s = some t → t.Inv) ∧
  (∀ (p : Inputs) (ps : List Inputs) (s : State), s.cfg.wf = true → p.rst = true →
    ∃ t, runEdges (p :: ps) s = some t ∧ t.Inv)

/-- SR's reachable values are those of the form R31 names, at both levels: whatever stood before it, a
run that begins with INIT can end with SR = v exactly if v has that form, and 768 values have it. After
an accepted LOAD and k TICKs SR is frame(c) >> k and bitlen(SR) is 10 - k; for k up to 9 that value is
nonzero, and for k = 9 it is 1. 10_state.md section 4 (R31, derived by the spec) and section 2
(R26). -/
def Obligations.ReachableShiftRegisterValues : Prop :=
  (∀ (s : State) (v : SrWord), s.cfg.wf = true →
    (ReachableSr v ↔ ∃ ops t, eventRun (.init :: ops) s = some t ∧ t.sr = v)) ∧
  (∀ (s : State) (v : SrWord), s.cfg.wf = true →
    (ReachableSr v ↔ ∃ p ps t, p.rst = true ∧ runEdges (p :: ps) s = some t ∧ t.sr = v)) ∧
  (∃ vs : List SrWord, vs.Nodup ∧ vs.length = 768 ∧ ∀ v, v ∈ vs ↔ ReachableSr v) ∧
  (∀ (s : State) (c : Byte) (k : Nat), s.sr = 0#10 → k ≤ 10 →
    ∃ t, eventRun (.load c :: ticks k) s = some t ∧ t.sr = frame c >>> k ∧ t.remaining = 10 - k) ∧
  (∀ (c : Byte) (k : Nat), k ≤ 9 →
    frame c >>> k ≠ 0#10 ∧ bitlen (frame c >>> k).toNat = 10 - k) ∧
  (∀ c : Byte, frame c >>> 9 = 1#10)

/-- In a state that meets the invariant CSTEP never wraps: it is selected only with CNT + 1 at most
BIT_PERIOD_TICKS - 1, and never if BIT_PERIOD_TICKS = 1. 42_timing_source.md (R142, decision D9;
R152, derived by the spec). -/
def Obligations.CstepNeverWraps : Prop :=
  ∀ s t : State, s.Inv → s.cycleOps.timer = some .cstep → exec .cstep s = .next t →
    t.cnt = s.cnt + 1 ∧ t.cnt ≤ s.cfg.bitPeriodTicks - 1 ∧ s.cfg.bitPeriodTicks ≠ 1

/-- CNT_W is the smallest width, of at least 1, that holds BIT_PERIOD_TICKS - 1. 00_scope.md
section 3 (R12, decision D8). -/
def Obligations.CounterWidthIsSmallest : Prop :=
  ∀ c : Config, 1 ≤ cntW c ∧ c.bitPeriodTicks - 1 < 2 ^ cntW c ∧
    ∀ w : Nat, 1 ≤ w → c.bitPeriodTicks - 1 < 2 ^ w → cntW c ≤ w

/-- The period formula: two nearest integers to one quotient are equal or the two neighbours of an
exact half, and there always is one. 42_timing_source.md section 3 (R149); both are allowed at a
half because the spec does not say (93_implementation_defined.md U3, log 12). -/
def Obligations.NearestPeriodExistsAndTies : Prop :=
  (∀ fClk prescaler baud : Nat, 0 < prescaler * baud →
    ∃ p, Config.isNearestPeriod fClk prescaler baud p) ∧
  (∀ fClk prescaler baud p q : Nat, Config.isNearestPeriod fClk prescaler baud p →
    Config.isNearestPeriod fClk prescaler baud q → p < q →
    q = p + 1 ∧ 2 * fClk = (2 * p + 1) * (prescaler * baud))

/-! ## Frames, periods and levels -/

/-- R125: frame integrity. After an accepted LOAD c, whatever LOADs and POLLs fall between the
TICKs, the (n + 1)-th TICK writes frame(c)[n] to the pin and leaves SR = frame(c) >> (n + 1), for n
= 0 to 9; the levels are 0, the bits of c least significant first, 1; and the tenth leaves SR = 0
and the timing source disarmed. -/
def Obligations.FrameIntegrity : Prop :=
  (∀ (s : State) (c : Byte) (ops : List Instr), s.sr = 0#10 →
    (∀ i ∈ ops, i = .tick ∨ i = .poll ∨ ∃ d, i = .load d) → ops.count .tick ≤ 9 →
    ∃ t, eventRun (.load c :: ops ++ [.tick]) s = some t ∧
      t.txd = (frame c).getLsbD (ops.count .tick) ∧
      t.sr = frame c >>> (ops.count .tick + 1) ∧
      t.ten = decide (ops.count .tick < 9) ∧
      (ops.count .tick = 9 → t.sr = 0#10)) ∧
  (∀ c : Byte, (frame c).getLsbD 0 = false ∧ (frame c).getLsbD 9 = true ∧
    ∀ i : Nat, i < 8 → (frame c).getLsbD (i + 1) = c.getLsbD i)

/-- A frame takes exactly ten TICKs, and from any state of the invariant the number of TICKs to idle
is bitlen(SR), at most 10; the TICK after the last has no step. 41_bit_emitter.md (R126, derived by
the spec; R123). -/
def Obligations.FrameTakesTenTicks : Prop :=
  (∀ (s : State) (n : Nat), s.Inv →
    (n < s.remaining → ∃ t, eventRun (ticks n) s = some t ∧ t.sr ≠ 0#10 ∧ t.ten = true) ∧
    (n = s.remaining → ∃ t, eventRun (ticks n) s = some t ∧ t.sr = 0#10 ∧ t.ten = false) ∧
    (s.remaining < n → eventRun (ticks n) s = none) ∧
    s.remaining ≤ 10) ∧
  (∀ (s t : State) (c : Byte), s.sr = 0#10 → exec (.load c) s = .next t → t.remaining = 10)

/-- After POLL has answered BUSY = 0 no TICK happens until a LOAD is accepted: in a run without LOADs
no TICK has a step. 20_memory.md section 6 (R59 (b), decision D20). -/
def Obligations.NoTickAfterAnIdlePoll : Prop :=
  ∀ (s t u : State) (ops : List Instr), s.Inv → eventOp .poll s = some t → t.out.busy = false →
    (∀ i ∈ ops, ∀ c, i ≠ .load c) → eventRun ops t = some u → .tick ∉ ops

/-- R34: the tagged state. Every operation moves `Idle` and `Sending{remaining_bits,
pending_value}` as the rule says, and the mapping loses nothing. -/
def Obligations.TaggedStateView : Prop :=
  (∀ (i : Instr) (s : State), ∃ t, exec i s = .next t ∧
    Tagged.ofSr t.sr = Tagged.after i (Tagged.ofSr s.sr)) ∧
  (∀ v w : SrWord, Tagged.ofSr v = Tagged.ofSr w → v = w) ∧
  Tagged.ofSr 0#10 = .idle ∧
  (∀ v : SrWord, v ≠ 0#10 → Tagged.ofSr v = .sending (bitlen v.toNat) v) ∧
  (∀ c : Byte, Tagged.ofSr (frame c) = .sending 10 (frame c))

/-- The event level has no counter: what its operations do to SR, TXD and TEN does not depend on CNT,
on BIT_PERIOD_TICKS or on anything else of the state. 42_timing_source.md section 3 (R151, decision
D22), 00_scope.md section 2 (R5, decision D4). -/
def Obligations.EventLevelNeedsNoCounter : Prop :=
  ∀ (ops : List Instr) (s t : State), s.eventView = t.eventView →
    (eventRun ops s).map State.eventView = (eventRun ops t).map State.eventView

/-- Refinement: from a state that meets the invariant, one clock edge gives the same SR, TXD, TEN and
the same answer as its event-level operations in order. 43_cycle_step.md section 3 (R170, decision
D5). -/
def Obligations.ClockEdgeRefinesEventLevel : Prop :=
  ∀ s t : State, s.Inv → step s = .next t →
    ∃ u, eventRun s.edgeEvents s = some u ∧ u.eventView = t.eventView ∧ u.out = t.out

/-- The bit period. After the edge of an accepted LOAD of c, count only the edges with a strobe: with
k strobes, k below ten periods, SR = frame(c) >> (k / P), CNT = k mod P, and the pin carries the bit
of slot k / P - 1; at the edge of the (10 P)-th strobe the block is idle and the stop bit is on the
pin. LOADs in between are rejected and change nothing of this. 42_timing_source.md section 3 (R148,
derived by the spec, decision D9). -/
def Obligations.BitPeriodInStrobes : Prop :=
  ∀ (s : State) (p : Inputs) (ps : List Inputs), s.Inv → s.sr = 0#10 →
    p.rst = false → p.req = true → (∀ q ∈ ps, q.rst = false) →
    (strobes ps < 10 * s.cfg.bitPeriodTicks →
      ∃ t, runEdges (p :: ps) s = some t ∧
        t.sr = frame p.din >>> (strobes ps / s.cfg.bitPeriodTicks) ∧
        t.cnt = strobes ps % s.cfg.bitPeriodTicks ∧
        t.ten = true ∧
        t.txd =
          if strobes ps / s.cfg.bitPeriodTicks = 0 then true
          else (frame p.din).getLsbD (strobes ps / s.cfg.bitPeriodTicks - 1)) ∧
    (∀ (qs : List Inputs) (q : Inputs), ps = qs ++ [q] → q.cke = true →
      strobes ps = 10 * s.cfg.bitPeriodTicks →
      ∃ t, runEdges (p :: ps) s = some t ∧
        t.elements = { sr := 0#10, txd := true, ten := false, cnt := 0 })

/-- Back to back, no stop bit is shorter than a bit period: from an idle block the line stays high as
long as fewer than BIT_PERIOD_TICKS strobes have passed, whatever the host asks for meanwhile.
70_reset_and_hazards.md section 3 (R222, derived by the spec). -/
def Obligations.StopBitLastsABitPeriod : Prop :=
  ∀ (s : State) (ps : List Inputs), s.Inv → s.sr = 0#10 → (∀ q ∈ ps, q.rst = false) →
    strobes ps < s.cfg.bitPeriodTicks → ∃ t, runEdges ps s = some t ∧ t.txd = true

/-! ## The host's procedures -/

/-- SENDSTR from an idle block, under every schedule: what is on the wire is always a beginning of the
whole frames of its characters in order, no bit of a later one before the last of an earlier one;
when it returns all of it is, and the block is idle with the line high. 40_frame_loader.md section 3
(R106, decision D15; R107; R108, derived by the spec). -/
def Obligations.SendStrSendsWholeFramesInOrder : Prop :=
  ∀ (cs : List Byte) (s : State) (ts : List Turn) (b : Bench), s.Inv → s.sr = 0#10 →
    Bench.run ts { proc := .sendStr cs, block := s, wire := [] } = b →
    b.wire <+: cs.flatMap wireFrame ∧
    (b.proc = .done → b.wire = cs.flatMap wireFrame ∧ b.block.sr = 0#10 ∧ b.block.ten = false ∧
      b.block.txd = true)

/-- SENDSTR started while a frame is in flight: its first LOAD is rejected, that character is lost,
the frame in flight is finished and the other characters are sent. 40_frame_loader.md section 3
(R108 case (b), derived by the spec, decision D15). -/
def Obligations.SendStrWhileBusyLosesItsFirstCharacter : Prop :=
  ∀ (c : Byte) (cs : List Byte) (s : State) (ts : List Turn) (b : Bench), s.Inv → s.sr ≠ 0#10 →
    Bench.run (.host :: ts) { proc := .sendStr (c :: cs), block := s, wire := [] } = b →
    b.proc = .done → b.wire = pendingBits s.sr ++ cs.flatMap wireFrame

/-- SENDSTR terminates under fairness: twelve rounds a character, in each of which both agents get a
turn, are enough, from any state of the invariant. 40_frame_loader.md section 3 (R107) and
70_reset_and_hazards.md section 4 (R226, decision D22: the fairness is the hypothesis). -/
def Obligations.SendStrTerminatesUnderFairness : Prop :=
  ∀ (cs : List Byte) (s : State) (w : List Bool) (rs : List (List Turn)), s.Inv →
    (∀ r ∈ rs, FairRound r) → 12 * cs.length ≤ rs.length →
    (Bench.run rs.flatten { proc := .sendStr cs, block := s, wire := w }).proc = .done

/-- The retry idiom terminates under fairness within eleven rounds, and loses nothing: the wire gets
the rest of the frame in flight and then bits of the character's own frame. 40_frame_loader.md
section 3 (R109, derived by the spec). -/
def Obligations.RetryEndsAndLosesNothing : Prop :=
  (∀ (c : Byte) (s : State) (w : List Bool) (rs : List (List Turn)), s.Inv →
    (∀ r ∈ rs, FairRound r) → 11 ≤ rs.length →
    (Bench.run rs.flatten { proc := .retry c, block := s, wire := w }).proc = .done) ∧
  (∀ (c : Byte) (s : State) (ts : List Turn) (b : Bench), s.Inv →
    Bench.run ts { proc := .retry c, block := s, wire := [] } = b → b.proc = .done →
    b.wire ++ pendingBits b.block.sr = pendingBits s.sr ++ wireFrame c)

/-- A host procedure on the ports is the same procedure at the event level, edge by edge: a turn of the
host, then a turn of the timer if the edge performs a TICK. It is about one host only, `Bench.edge`, which
issues an operation in EVERY clock cycle and reads acc and busy in that cycle: that is the model's choice
(log 13, DESIGN CHOICE), not a rule of the spec, and a host that lets cycles pass between its operations
is not covered. How the ports are driven and how a cycle maps to events: 43_cycle_step.md sections 2
and 3 (R169, R170, derived by the spec). -/
def Obligations.HostProcedureOnThePorts : Prop :=
  ∀ (b : Bench) (cke : Bool) (ts : List Turn), b.block.Inv →
    ts = .host :: (if (b.driven cke).cycleOps.timer = some .tick then [.timer] else []) →
    (b.edge cke).proc = (b.run ts).proc ∧ (b.edge cke).wire = (b.run ts).wire ∧
    (b.edge cke).block.eventView = (b.run ts).block.eventView
end

