-- ==== Sys2Proof/Laws/State.lean ====
section
/-! SUPPORT. Sys2Proof/Laws/State.lean: one lemma per field per update of State, so that no later
proof unfolds a record update. -/

namespace Sys2Proof.Machine

variable (s : State)

@[simp] theorem State.setSr_sr (v : SrWord) : (s.setSr v).sr = v := rfl
@[simp] theorem State.setSr_txd (v : SrWord) : (s.setSr v).txd = s.txd := rfl
@[simp] theorem State.setSr_ten (v : SrWord) : (s.setSr v).ten = s.ten := rfl
@[simp] theorem State.setSr_cnt (v : SrWord) : (s.setSr v).cnt = s.cnt := rfl
@[simp] theorem State.setSr_cfg (v : SrWord) : (s.setSr v).cfg = s.cfg := rfl
@[simp] theorem State.setSr_inputs (v : SrWord) : (s.setSr v).inputs = s.inputs := rfl
@[simp] theorem State.setSr_edges (v : SrWord) : (s.setSr v).edges = s.edges := rfl
@[simp] theorem State.setSr_out (v : SrWord) : (s.setSr v).out = s.out := rfl

@[simp] theorem State.setTxd_sr (b : Bool) : (s.setTxd b).sr = s.sr := rfl
@[simp] theorem State.setTxd_txd (b : Bool) : (s.setTxd b).txd = b := rfl
@[simp] theorem State.setTxd_ten (b : Bool) : (s.setTxd b).ten = s.ten := rfl
@[simp] theorem State.setTxd_cnt (b : Bool) : (s.setTxd b).cnt = s.cnt := rfl
@[simp] theorem State.setTxd_cfg (b : Bool) : (s.setTxd b).cfg = s.cfg := rfl
@[simp] theorem State.setTxd_inputs (b : Bool) : (s.setTxd b).inputs = s.inputs := rfl
@[simp] theorem State.setTxd_edges (b : Bool) : (s.setTxd b).edges = s.edges := rfl
@[simp] theorem State.setTxd_out (b : Bool) : (s.setTxd b).out = s.out := rfl

@[simp] theorem State.setTen_sr (b : Bool) : (s.setTen b).sr = s.sr := rfl
@[simp] theorem State.setTen_txd (b : Bool) : (s.setTen b).txd = s.txd := rfl
@[simp] theorem State.setTen_ten (b : Bool) : (s.setTen b).ten = b := rfl
@[simp] theorem State.setTen_cnt (b : Bool) : (s.setTen b).cnt = s.cnt := rfl
@[simp] theorem State.setTen_cfg (b : Bool) : (s.setTen b).cfg = s.cfg := rfl
@[simp] theorem State.setTen_inputs (b : Bool) : (s.setTen b).inputs = s.inputs := rfl
@[simp] theorem State.setTen_edges (b : Bool) : (s.setTen b).edges = s.edges := rfl
@[simp] theorem State.setTen_out (b : Bool) : (s.setTen b).out = s.out := rfl

@[simp] theorem State.setCnt_sr (n : Nat) : (s.setCnt n).sr = s.sr := rfl
@[simp] theorem State.setCnt_txd (n : Nat) : (s.setCnt n).txd = s.txd := rfl
@[simp] theorem State.setCnt_ten (n : Nat) : (s.setCnt n).ten = s.ten := rfl
@[simp] theorem State.setCnt_cnt (n : Nat) : (s.setCnt n).cnt = n % 2 ^ cntW s.cfg := rfl
@[simp] theorem State.setCnt_cfg (n : Nat) : (s.setCnt n).cfg = s.cfg := rfl
@[simp] theorem State.setCnt_inputs (n : Nat) : (s.setCnt n).inputs = s.inputs := rfl
@[simp] theorem State.setCnt_edges (n : Nat) : (s.setCnt n).edges = s.edges := rfl
@[simp] theorem State.setCnt_out (n : Nat) : (s.setCnt n).out = s.out := rfl

@[simp] theorem State.respond_sr (a : Bool) : (s.respond a).sr = s.sr := rfl
@[simp] theorem State.respond_txd (a : Bool) : (s.respond a).txd = s.txd := rfl
@[simp] theorem State.respond_ten (a : Bool) : (s.respond a).ten = s.ten := rfl
@[simp] theorem State.respond_cnt (a : Bool) : (s.respond a).cnt = s.cnt := rfl
@[simp] theorem State.respond_cfg (a : Bool) : (s.respond a).cfg = s.cfg := rfl
@[simp] theorem State.respond_inputs (a : Bool) : (s.respond a).inputs = s.inputs := rfl
@[simp] theorem State.respond_edges (a : Bool) : (s.respond a).edges = s.edges := rfl
@[simp] theorem State.respond_out (a : Bool) : (s.respond a).out = s.outputs a := rfl

@[simp] theorem State.passEdge_sr : (s.passEdge).sr = s.sr := rfl
@[simp] theorem State.passEdge_txd : (s.passEdge).txd = s.txd := rfl
@[simp] theorem State.passEdge_ten : (s.passEdge).ten = s.ten := rfl
@[simp] theorem State.passEdge_cnt : (s.passEdge).cnt = s.cnt := rfl
@[simp] theorem State.passEdge_cfg : (s.passEdge).cfg = s.cfg := rfl
@[simp] theorem State.passEdge_inputs : (s.passEdge).inputs = s.inputs.tail := rfl
@[simp] theorem State.passEdge_edges : (s.passEdge).edges = s.edges + 1 := rfl
@[simp] theorem State.passEdge_out : (s.passEdge).out = s.out := rfl

theorem State.ports_of_cons (p : Inputs) (ps : List Inputs) (h : s.inputs = p :: ps) :
    s.ports = p := by
  simp [State.ports, h]

end Sys2Proof.Machine
end

