-- ==== Sys2Proof/Laws/Ops.lean ====
section
/-! SUPPORT. Sys2Proof/Laws/Ops.lean: for each shared operation, once, everything it does; later
proofs cite these. -/

namespace Sys2Proof.Machine

variable (s : State)

/-! ## Signals -/

@[simp] theorem State.busy_eq_true : s.busy = true ↔ s.sr ≠ 0#10 := by simp [State.busy]

@[simp] theorem State.busy_eq_false : s.busy = false ↔ s.sr = 0#10 := by simp [State.busy]

@[simp] theorem State.accepts_eq_true : s.accepts = true ↔ s.sr = 0#10 := by simp [State.accepts]

@[simp] theorem State.accepts_eq_false : s.accepts = false ↔ s.sr ≠ 0#10 := by
  simp [State.accepts]

@[simp] theorem State.compareMatch_eq_true :
    s.compareMatch = true ↔ s.cnt = s.cfg.bitPeriodTicks - 1 := by
  simp [State.compareMatch]

@[simp] theorem State.compareMatch_eq_false :
    s.compareMatch = false ↔ s.cnt ≠ s.cfg.bitPeriodTicks - 1 := by
  simp [State.compareMatch]

/-! ## The frame word -/

/-- The stop bit keeps a frame word from being 0. -/
theorem frame_ne_zero (c : Byte) : frame c ≠ 0#10 := by
  revert c; decide

/-! ## Micro-operations and parts of operations -/

theorem State.arm_eq : s.arm = { s with ten := true } := rfl

/-- CNT_BASE is 0 in any width. -/
theorem State.disarm_eq : s.disarm = { s with ten := false, cnt := 0 } := by
  simp [State.disarm, State.setCnt, State.setTen]

theorem State.resetElements_eq :
    s.resetElements = { s with sr := 0#10, txd := true, ten := false, cnt := 0 } := by
  simp [State.resetElements, State.setSr, State.setTxd, State.setTen, State.setCnt]

theorem State.loadFrame_eq (c : Byte) :
    s.loadFrame c = { s with sr := frame c, ten := true } := rfl

theorem State.shiftOut_eq :
    s.shiftOut = { s with sr := s.sr >>> 1, txd := s.sr.getLsbD 0, cnt := 0 } := by
  simp [State.shiftOut, State.setSr, State.setTxd, State.setCnt]

/-- Both branches leave CNT as the shift left it, since DISARM writes the same base value
(42_timing_source.md R144). -/
theorem State.endFrame_shiftOut_eq :
    s.shiftOut.endFrame =
      { s with
        sr := s.sr >>> 1
        txd := s.sr.getLsbD 0
        cnt := 0
        ten := if s.sr >>> 1 = 0#10 then false else s.ten } := by
  rw [State.endFrame, State.shiftOut_eq]
  by_cases h : s.sr >>> 1 = 0#10 <;> simp [h, State.disarm_eq]

theorem State.countUp_eq :
    s.countUp = { s with cnt := (s.cnt + 1) % 2 ^ cntW s.cfg } := rfl

theorem State.respond_eq (a : Bool) :
    s.respond a = { s with out := { acc := a, busy := s.busy, txd := s.txd } } := rfl

/-! ## The arms of exec -/

theorem exec_init : exec .init s = .next (s.respond false).resetElements := rfl

theorem exec_load_idle (c : Byte) (h : s.sr = 0#10) :
    exec (.load c) s = .next ((s.respond true).loadFrame c) := by
  simp [exec, execLoad, State.accepts, h]

theorem exec_load_busy (c : Byte) (h : s.sr ≠ 0#10) :
    exec (.load c) s = .next (s.respond false) := by
  simp [exec, execLoad, State.accepts, h]

theorem exec_poll : exec .poll s = .next (s.respond false) := rfl

theorem exec_tick : exec .tick s = .next s.shiftOut.endFrame := rfl

theorem exec_cstep : exec .cstep s = .next s.countUp := rfl

theorem exec_hold : exec .hold s = .next s := rfl

theorem exec_idle : exec .idle s = .next s := rfl

/-! ## Together in one edge -/

/-- Without an accepted LOAD the timer side's state stands, with the host's answer. -/
theorem commit_of_not_acc (t h : State) (ha : h.out.acc = false) :
    commit t h = { t with out := h.out } := by
  simp [commit, ha]

/-- With an accepted LOAD the host's SR and TEN stand, and the timer side's TXD and CNT. -/
theorem commit_of_acc (t h : State) (ha : h.out.acc = true) :
    commit t h = { t with sr := h.sr, ten := h.ten, out := h.out } := by
  simp [commit, ha]

end Sys2Proof.Machine
end

