-- ==== Sys2Proof/Laws/Step.lean ====
section
/-! SUPPORT. Sys2Proof/Laws/Step.lean: which operations an edge selects, and what a step is made
of, said once. -/

namespace Sys2Proof.Machine

/-! ## The two words -/

/-- The command word's operation, in terms of the ports it is made of. -/
theorem decodeCW_commandWord (p : Inputs) :
    decodeCW (Inputs.commandWord p) =
      if p.rst then .init else if p.req then .load p.din else .poll := by
  obtain ⟨rst, req, din, cke⟩ := p
  cases cke <;> cases rst <;> cases req <;> revert din <;> decide

/-- The event vector's operation, in terms of the signals it is made of. -/
theorem decodeEV_eventVector (s : State) (cke : Bool) :
    decodeEV (s.eventVector cke) =
      if s.ten then
        if cke then (if s.compareMatch then .tick else .cstep) else .hold
      else .idle := by
  unfold State.eventVector
  cases s.ten <;> cases cke <;> cases s.compareMatch <;> rfl

/-- What the coming edge performs. -/
theorem State.cycleOps_eq (s : State) :
    s.cycleOps =
      if s.ports.rst then { host := .init, timer := none }
      else
        { host := if s.ports.req then .load s.ports.din else .poll
          timer := some (
            if s.ten then
              if s.ports.cke then (if s.compareMatch then .tick else .cstep) else .hold
            else .idle) } := by
  rw [State.cycleOps, selectOps, decodeCW_commandWord, decodeEV_eventVector]
  cases s.ports.rst
  · cases s.ports.req <;> rfl
  · rfl

/-! ## The step -/

/-- An edge that gives the host side alone. -/
theorem runOps_none (i : Instr) (s : State) : runOps { host := i, timer := none } s = exec i s := rfl

/-- An edge with both sides: both from `s`. -/
theorem runOps_some {i t : Instr} {s sh st : State} (hh : exec i s = .next sh)
    (ht : exec t s = .next st) :
    runOps { host := i, timer := some t } s = .next (commit st sh) := by
  simp [runOps, hh, ht]

theorem step_eq_runOps (s : State) : step s = runOps s.cycleOps s.passEdge := rfl

@[simp] theorem State.busy_passEdge (s : State) : s.passEdge.busy = s.busy := rfl

@[simp] theorem State.accepts_passEdge (s : State) : s.passEdge.accepts = s.accepts := rfl

/-! ## Placing a word -/

/-- The counter chosen for an event vector forms its MATCH bit. -/
theorem State.compareMatch_presentEvent (s : State) (w : EvWord) :
    (s.presentEvent w).compareMatch = w.getLsbD 0 := by
  unfold State.presentEvent State.cntFor
  cases hm : s.compareMatch <;> cases hv : w.getLsbD 0 <;> simp_all
  split <;> omega

/-- The event vector of the coming edge is the one placed. -/
theorem State.eventVector_presentEvent (s : State) (w : EvWord) :
    (s.presentEvent w).eventVector (s.presentEvent w).ports.cke = w := by
  unfold State.eventVector
  rw [State.compareMatch_presentEvent]
  simp only [State.presentEvent, State.ports]
  revert w; decide

/-- The ports of the coming edge are the fields of the command word placed. -/
theorem State.ports_presentCommand (s : State) (w : CmdWord) :
    (s.presentCommand w).ports =
      { rst := w.getLsbD 9, req := w.getLsbD 8, din := w.extractLsb' 0 8, cke := false } := rfl

end Sys2Proof.Machine
end

