-- ==== Sys2Proof/Laws/EventLevel.lean ====
section
/-! SUPPORT. Sys2Proof/Laws/EventLevel.lean: what each event-level operation does, once, and how
runs are put together. -/

namespace Sys2Proof.Machine

variable (s : State)

theorem eventOp_init : eventOp .init s = some (s.respond false).resetElements := rfl

theorem eventOp_poll : eventOp .poll s = some (s.respond false) := rfl

theorem eventOp_load_idle (c : Byte) (h : s.sr = 0#10) :
    eventOp (.load c) s = some ((s.respond true).loadFrame c) := by
  simp [eventOp, exec_load_idle s c h, nextOf]

theorem eventOp_load_busy (c : Byte) (h : s.sr ≠ 0#10) :
    eventOp (.load c) s = some (s.respond false) := by
  simp [eventOp, exec_load_busy s c h, nextOf]

theorem eventOp_tick_armed (h : s.ten = true) : eventOp .tick s = some s.shiftOut.endFrame := by
  simp [eventOp, h, exec_tick, nextOf]

theorem eventOp_tick_disarmed (h : s.ten = false) : eventOp .tick s = none := by
  simp [eventOp, h]

/-- A run in two parts. -/
theorem eventRun_append (a b : List Instr) :
    eventRun (a ++ b) s = (eventRun a s).bind (eventRun b) := by
  induction a generalizing s with
  | nil => rfl
  | cons i is ih =>
    simp only [List.cons_append, eventRun]
    split
    · exact ih _
    · rfl

/-- A schedule in two parts. -/
theorem strobes_append (a b : List Inputs) : strobes (a ++ b) = strobes a + strobes b := by
  induction a with
  | nil => simp [strobes]
  | cons p a ih => simp [strobes, ih, Nat.add_assoc]

end Sys2Proof.Machine
end

