-- ==== Sys2Proof/Laws/Invariant.lean ====
section
/-! SUPPORT. Sys2Proof/Laws/Invariant.lean: the invariant is about the block and its parameter
alone, and the small facts about its parts. -/

namespace Sys2Proof.Machine

/-- What the model carries beside the block does not matter to the invariant. -/
theorem State.Inv.congr {s t : State} (h : s.Inv) (he : t.elements = s.elements)
    (hc : t.cfg = s.cfg) : t.Inv := by
  simp only [State.elements, Elements.mk.injEq] at he
  obtain ⟨h1, h2, h3, h4⟩ := he
  obtain ⟨a, b, c, d, e, f, g⟩ := h
  exact ⟨hc ▸ a, by rw [h1, h3]; exact b, by rw [h1]; exact c, by rw [h4, hc]; exact d,
    by rw [h3, h4]; exact e, by rw [h1, h2]; exact f, by rw [h1, h2]; exact g⟩

theorem State.Inv.with_inputs {s : State} (h : s.Inv) (ps : List Inputs) :
    ({ s with inputs := ps } : State).Inv := h.congr rfl rfl

/-- BIT_PERIOD_TICKS >= 1, as arithmetic. -/
theorem State.Inv.one_le_period {s : State} (h : s.Inv) : 1 ≤ s.cfg.bitPeriodTicks := by
  simpa [Config.wf] using h.period_pos

/-- A busy block is armed (10_state.md R30). -/
theorem State.Inv.ten_of_busy {s : State} (h : s.Inv) (hz : s.sr ≠ 0#10) : s.ten = true := by
  cases ht : s.ten
  · exact absurd (h.idle_iff.2 ht) hz
  · rfl

/-- An idle block is in the reset state of its elements (10_state.md R30, R32, R33). -/
theorem State.Inv.elements_of_idle {s : State} (h : s.Inv) (hz : s.sr = 0#10) :
    s.elements = { sr := 0#10, txd := true, ten := false, cnt := 0 } := by
  have ht := h.idle_iff.1 hz
  simp [State.elements, hz, ht, h.cnt_idle ht, h.idle_high hz]

/-- Two shifts are one shift by the sum (10_state.md R31 counts the TICKs). -/
theorem shift_shift (v : SrWord) (a b : Nat) : v >>> a >>> b = v >>> (a + b) := by
  rw [BitVec.shiftRight_add]

end Sys2Proof.Machine
end

