-- ==== Sys2Proof/Laws/PerInstr.lean ====
section
/-! SUPPORT. Sys2Proof/Laws/PerInstr.lean: facts about every operation as syntax, one lemma a
constructor. -/

namespace Sys2Proof.Laws.RowMatch

/-- The word an operation is encoded as is one its own row of the table matches, on its own side
(30_encoding.md R80). -/
def Statement (i : Instr) : Prop :=
  (encode i).side = i.side ∧
    ∃ r ∈ rows, r.mnemonic = i.mnemonic ∧ r.matchesCode (encode i) = true

theorem init : Statement .init :=
  ⟨rfl, _, List.mem_cons_self, rfl, rfl⟩

/-- For each of the 256 characters. -/
theorem load (c : Byte) : Statement (.load c) := by
  refine ⟨rfl, _, List.mem_cons_of_mem _ List.mem_cons_self, rfl, ?_⟩
  revert c; decide

theorem poll : Statement .poll :=
  ⟨rfl, rows[2], by simp [rows], rfl, rfl⟩

theorem tick : Statement .tick :=
  ⟨rfl, rows[3], by simp [rows], rfl, rfl⟩

theorem cstep : Statement .cstep :=
  ⟨rfl, rows[4], by simp [rows], rfl, rfl⟩

theorem hold : Statement .hold :=
  ⟨rfl, rows[5], by simp [rows], rfl, rfl⟩

theorem idle : Statement .idle :=
  ⟨rfl, rows[6], by simp [rows], rfl, rfl⟩

end Sys2Proof.Laws.RowMatch
end

