-- ==== Sys2Proof/Tests/Slice0.lean ====
section
/-! SUPPORT. Sys2Proof/Tests/Slice0.lean: the model's own tests, with expected values from
95_test_vectors.md, and for each statement with hypotheses a witness that meets them. -/

namespace Sys2Proof.Tests

open Sys2Proof Sys2Proof.Machine

/-- A state (SR, TXD, TEN, CNT) of an instance with BIT_PERIOD_TICKS = P and the coming ports. -/
def st (P : Nat) (sr : SrWord) (txd ten : Bool) (cnt : Nat) (ps : List Inputs := []) : State :=
  { sr := sr, txd := txd, ten := ten, cnt := cnt, cfg := { bitPeriodTicks := P }, inputs := ps,
    edges := 0, out := { acc := false, busy := false, txd := true } }

/-- (SR, TXD, TEN, CNT). -/
def el (sr : SrWord) (txd ten : Bool) (cnt : Nat) : Elements :=
  { sr := sr, txd := txd, ten := ten, cnt := cnt }

/-- The elements after an operation. -/
def after (i : Instr) (s : State) : Option Elements := (nextOf (exec i s)).map State.elements

/-- The answer of an operation. -/
def answer (i : Instr) (s : State) : Option Response := (nextOf (exec i s)).map State.out

/-- Elements and answer of a clock edge. -/
def edge (s : State) : Option (Elements × Response) :=
  (nextOf (step s)).map (fun t => (t.elements, t.out))

/-- Ports of one edge. -/
def io (rst req : Bool) (din : Byte) (cke : Bool) : Inputs :=
  { rst := rst, req := req, din := din, cke := cke }

/-! ## Decoding: words written out from 30_encoding.md R80 (and 95_test_vectors.md 2.6) -/

theorem test_decode_init : decodeCW 0b1000000000#10 = .init ∧ decodeCW 0b1110100101#10 = .init := by decide
theorem test_decode_load : decodeCW 0b0101000001#10 = .load 0x41#8 := by decide
theorem test_decode_poll : decodeCW 0b0000000000#10 = .poll ∧ decodeCW 0b0011111111#10 = .poll := by decide
theorem test_decode_tick : decodeEV 0b111#3 = .tick := by decide
theorem test_decode_cstep : decodeEV 0b110#3 = .cstep := by decide
theorem test_decode_hold : decodeEV 0b100#3 = .hold ∧ decodeEV 0b101#3 = .hold := by decide
theorem test_decode_idle : decodeEV 0b000#3 = .idle ∧ decodeEV 0b011#3 = .idle := by decide

theorem test_bytes_load : decodeBytes [0x41#8, 0x01#8] = .instr (.load 0x41#8) := by decide
theorem test_bytes_above_cw : decodeBytes [0x00#8, 0x04#8] = .reject .bitAboveTheWord := by decide
theorem test_bytes_above_ev : decodeBytes [0x08#8] = .reject .bitAboveTheWord := by decide
theorem test_bytes_none : decodeBytes [] = .reject .lengthOfNoFormat := by decide
theorem test_bytes_three : decodeBytes [0#8, 0#8, 0#8] = .reject .lengthOfNoFormat := by decide

theorem test_table_words :
    decodeTableWord 16 0x200 = some .init ∧ decodeTableWord 16 0x141 = some (.load 0x41#8) ∧
    decodeTableWord 16 0x000 = some .poll ∧ decodeTableWord 8 7 = some .tick ∧
    decodeTableWord 8 6 = some .cstep ∧ decodeTableWord 8 4 = some .hold ∧
    decodeTableWord 8 0 = some .idle ∧ decodeTableWord 16 0x400 = none ∧
    decodeTableWord 8 8 = none := by decide

/-! ## Well-formedness: an ill-formed term for each check -/

theorem smoke_config_zero_period : Config.wf { bitPeriodTicks := 0 } = false := by decide
theorem smoke_config_one_period : Config.wf { bitPeriodTicks := 1 } = true := by decide
theorem smoke_cycle_timer_on_host_side :
    CycleOps.wf { host := .tick, timer := some .idle } = false := by decide
theorem smoke_cycle_host_on_timer_side :
    CycleOps.wf { host := .poll, timer := some .poll } = false := by decide
theorem smoke_cycle_init_with_timer :
    CycleOps.wf { host := .init, timer := some .tick } = false := by decide
theorem smoke_cycle_poll_without_timer :
    CycleOps.wf { host := .poll, timer := none } = false := by decide
theorem smoke_cycle_good : CycleOps.wf { host := .load 0x41#8, timer := some .idle } = true := by decide

/-! ## The operations: vectors of 95_test_vectors.md, named by their ids -/

theorem test_init_I2 : after .init (st 3 0x0A0#10 false true 2) = some (el 0#10 true false 0) ∧
    answer .init (st 3 0x0A0#10 false true 2) =
      some { acc := false, busy := true, txd := false } := by decide
theorem test_load_A4 : after (.load 0x80#8) (st 3 0#10 true false 0) = some (el 0x300#10 true true 0) ∧
    (answer (.load 0x80#8) (st 3 0#10 true false 0)).map Response.acc = some true := by decide
theorem test_load_B3 : after (.load 0xAA#8) (st 3 0x001#10 false true 0) = some (el 0x001#10 false true 0) ∧
    (answer (.load 0xAA#8) (st 3 0x001#10 false true 0)).map Response.acc = some false := by decide
theorem test_poll_Q1 : (answer .poll (st 3 0#10 true false 0)).map Response.busy = some false := by decide
theorem test_poll_Q3 : after .poll (st 3 1#10 true true 0) = some (el 1#10 true true 0) ∧
    (answer .poll (st 3 1#10 true true 0)).map Response.busy = some true := by decide
theorem test_tick_T2 : after .tick (st 3 0x141#10 false true 2) = some (el 0x0A0#10 true true 0) := by decide
theorem test_tick_T5 : after .tick (st 3 0x001#10 false true 2) = some (el 0#10 true false 0) := by decide
theorem test_tick_T7_T8 : after .tick (st 3 0#10 true true 2) = some (el 0#10 false false 0) ∧
    eventOp .tick (st 3 0#10 true false 0) = none := by decide
theorem test_cstep_K2 : after .cstep (st 4 0x282#10 true true 2) = some (el 0x282#10 true true 3) := by decide
/-- U13: a counter beyond the compare value wraps at 2 ^ CNT_W. -/
theorem test_cstep_wraps : after .cstep (st 3 0x282#10 true true 3) = some (el 0x282#10 true true 0) := by decide
theorem test_hold_K4 : edge (st 4 0x282#10 true true 3 [io false false 0#8 false]) =
    some (el 0x282#10 true true 3, { acc := false, busy := true, txd := true }) := by decide
theorem test_idle_K6 : edge (st 4 0#10 true false 0 [io false false 0#8 true]) =
    some (el 0#10 true false 0, { acc := false, busy := false, txd := true }) := by decide

/-! ## Clock edges: rows of P4, P5 and P6 -/

/-- P4 cycle 1. -/
theorem test_edge_load : edge (st 3 0#10 true false 0 [io false true 0xA5#8 true]) =
    some (el 0x34A#10 true true 0, { acc := true, busy := false, txd := true }) := by decide
/-- P5 cycle 40: the LOAD of the draining cycle is rejected. -/
theorem test_edge_drain : edge (st 2 0x001#10 false true 1 [io false true 0xFF#8 true]) =
    some (el 0#10 true false 0, { acc := false, busy := true, txd := false }) := by decide
/-- P6 cycle 6: INIT suppresses the TICK that was due and ignores the request. -/
theorem test_edge_init : edge (st 1 0x02A#10 true true 0 [io true true 0x33#8 true]) =
    some (el 0#10 true false 0, { acc := false, busy := true, txd := true }) := by decide
/-- 43_cycle_step.md R168: the unreachable clash of an accepted LOAD and a TICK. -/
theorem test_edge_clash : edge (st 3 0#10 true true 2 [io false true 0x41#8 true]) =
    some (el 0x282#10 false true 0, { acc := true, busy := false, txd := true }) := by decide

/-! ## A word placed for the coming edge runs after reset -/

theorem test_fetch_host :
    (edge (State.reset.withFetchWord 16 0x200)).map Prod.fst = some (el 0#10 true false 0) ∧
    (edge (State.reset.withFetchWord 16 0x141)).map Prod.fst = some (el 0x282#10 true true 0) ∧
    (edge (State.reset.withFetchWord 16 0x000)).map Prod.fst = some (el 0#10 true false 0) := by decide
theorem test_fetch_timer :
    (edge (State.reset.withFetchWord 8 7)).map Prod.fst = some (el 0#10 false false 0) ∧
    (edge (State.reset.withFetchWord 8 6)).map Prod.fst = some (el 0#10 true true 1) ∧
    (edge (State.reset.withFetchWord 8 4)).map Prod.fst = some (el 0#10 true true 0) ∧
    (edge (State.reset.withFetchWord 8 0)).map Prod.fst = some (el 0#10 true false 0) := by decide

/-! ## Frame, wire and width (95_test_vectors.md 2.1, 2.3; 00_scope.md R12) -/

theorem test_frame : frame 0x0D#8 = 0x21A#10 ∧ frame 0x80#8 = 0x300#10 ∧ frame 0xA5#8 = 0x34A#10 := by decide
theorem test_wire : wireFrame 0x41#8 =
    [false, true, false, false, false, false, false, true, false, true] := by decide
theorem test_wire_decode : wireDecode (wireFrame 0xA5#8) = some 0xA5#8 ∧
    wireDecode [true, false, false, false, false, false, false, false, false, true] = none := by decide
theorem test_cntW : cntW { bitPeriodTicks := 1 } = 1 ∧ cntW { bitPeriodTicks := 2 } = 1 ∧
    cntW { bitPeriodTicks := 3 } = 2 ∧ cntW { bitPeriodTicks := 4 } = 2 ∧
    cntW { bitPeriodTicks := 5 } = 3 := by decide
theorem test_response_word : rspWord { acc := true, busy := false, txd := true } = 0b101#3 := by decide
theorem test_nearest_at_a_half : Config.isNearestPeriod 5 2 1 2 ∧ Config.isNearestPeriod 5 2 1 3 ∧
    ¬ Config.isNearestPeriod 5 2 1 4 := by decide

/-! ## Witnesses of the hypotheses -/

/-- An idle state meets the invariant. -/
theorem inv_idle (ps : List Inputs) : (st 3 0#10 true false 0 ps).Inv :=
  State.Inv.with_inputs (s := st 3 0#10 true false 0)
    ⟨by decide, by decide, .inl rfl, by decide, by decide, by decide, by decide⟩ ps

/-- A state just after an accepted LOAD of 0x41, CNT at the compare value. -/
theorem inv_fresh (ps : List Inputs) : (st 3 0x282#10 true true 2 ps).Inv :=
  State.Inv.with_inputs (s := st 3 0x282#10 true true 2)
    ⟨by decide, by decide, .inr ⟨0x41#8, 0, by decide, by decide⟩, by decide, by decide, by decide, by decide⟩ ps

/-- A state with only the stop bit left, CNT at the compare value. -/
theorem inv_last (ps : List Inputs) : (st 3 1#10 false true 2 ps).Inv :=
  State.Inv.with_inputs (s := st 3 1#10 false true 2)
    ⟨by decide, by decide, .inr ⟨0x41#8, 9, by decide, by decide⟩, by decide, by decide, by decide, by decide⟩ ps

/-- A state in mid-frame with CNT = 0. -/
theorem inv_mid (ps : List Inputs) : (st 3 0x0A0#10 true true 0 ps).Inv :=
  State.Inv.with_inputs (s := st 3 0x0A0#10 true true 0)
    ⟨by decide, by decide, .inr ⟨0x41#8, 2, by decide, by decide⟩, by decide, by decide, by decide, by decide⟩ ps

theorem witness_LoadIsAtomicTestAndSet :
    (st 3 0#10 true false 0).sr = 0#10 ∧ (st 3 1#10 false true 0).sr ≠ 0#10 := by decide
theorem witness_AcceptWhenIdle : (st 3 0#10 false true 2).sr = 0#10 ∧
    ∃ t, exec .tick (st 3 1#10 false true 2) = .next t ∧ t.sr = 0#10 := ⟨rfl, _, rfl, by decide⟩
theorem witness_RejectWhenBusy : (st 3 1#10 false true 2).sr ≠ 0#10 := by decide
theorem witness_TickEmitsOneBit :
    ((st 3 0x282#10 true true 2).sr = 0x282#10 ∧ (st 3 0x282#10 true true 2).ten = true ∧
      (st 3 0x282#10 true true 2).txd = true) ∧
    ((st 3 1#10 false true 2).sr = 1#10 ∧ (st 3 1#10 false true 2).ten = true) ∧
    ∃ t, exec .tick (st 3 1#10 false true 2) = .next t := ⟨by decide, by decide, _, rfl⟩
theorem witness_HoldChangesNothing : (st 3 0x282#10 true true 2).ten = true := rfl
theorem witness_IdleChangesNothing :
    (0b011#3 : EvWord).getLsbD 2 = false ∧
    (∃ t, (st 3 0#10 true false 0 [io false true 0x41#8 true]).ten = false ∧
      (st 3 0#10 true false 0 [io false true 0x41#8 true]).cnt = 0 ∧
      step (st 3 0#10 true false 0 [io false true 0x41#8 true]) = .next t ∧ t.out.acc = true) ∧
    (st 3 0#10 true false 0 [io false true 0x41#8 true]).Inv :=
  ⟨by decide, ⟨_, rfl, rfl, rfl, by decide⟩, inv_idle _⟩
theorem witness_SideEffectsOfEachOperation :
    0 < 2 ∧ (st 3 1#10 false true 2).sr ≠ 0#10 ∧ (st 3 0#10 true false 0).sr = 0#10 := by decide
theorem witness_OnlyNamedOperationsWrite :
    (∃ t, exec .tick (st 3 1#10 false true 2) = .next t ∧ t.sr ≠ 0x1#10 ∧ t.txd ≠ false ∧
      t.ten ≠ true ∧ t.cnt ≠ 2) ∧
    (∃ t, exec (.load 0x41#8) (st 3 0#10 true false 0) = .next t ∧ t.sr ≠ 0#10 ∧ t.ten ≠ false ∧
      t.out ≠ (st 3 0#10 true false 0).out) ∧
    ∃ t, exec .cstep (st 3 1#10 false true 1) = .next t ∧ t.cnt ≠ 1 :=
  ⟨⟨_, rfl, by decide⟩, ⟨_, rfl, by decide⟩, _, rfl, by decide⟩
theorem witness_WhoArmsAndDisarms :
    (∃ t, exec (.load 0x41#8) (st 3 0#10 true false 0) = .next t ∧
      (st 3 0#10 true false 0).ten = false ∧ t.ten = true) ∧
    ∃ t, exec .tick (st 3 1#10 false true 2) = .next t ∧
      (st 3 1#10 false true 2).ten = true ∧ t.ten = false :=
  ⟨⟨_, rfl, by decide⟩, _, rfl, by decide⟩
theorem witness_FrameCannotBeCancelled :
    (∃ t, (Instr.load 0x42#8).side = .host ∧ Instr.load 0x42#8 ≠ .init ∧
      exec (.load 0x42#8) (st 3 1#10 false true 2) = .next t ∧ (st 3 1#10 false true 2).sr ≠ 0#10 ∧
      (st 3 1#10 false true 2).ten = true) ∧
    ((st 3 0x282#10 true true 2).Inv ∧ .init ∉ [Instr.poll, .tick] ∧
      (∃ t, eventRun [.poll, .tick] (st 3 0x282#10 true true 2) = some t) ∧
      [Instr.poll, .tick].count .tick < (st 3 0x282#10 true true 2).remaining) :=
  ⟨⟨_, by decide, by decide, rfl, by decide, by decide⟩, inv_fresh _, by decide, ⟨_, rfl⟩, by decide⟩
theorem witness_TickOnlyWhileArmed :
    ∃ t, (st 3 0#10 true false 0 [io false false 0#8 true]).ten = false ∧
      (st 3 0#10 true false 0 [io false false 0#8 true]).ports.rst = false ∧
      step (st 3 0#10 true false 0 [io false false 0#8 true]) = .next t ∧
      ∃ u, Instr.poll.side = .host ∧ Instr.poll ≠ .init ∧
        exec .poll (st 3 1#10 false true 2) = .next u :=
  ⟨_, rfl, rfl, rfl, _, by decide, by decide, rfl⟩
theorem witness_HostSeesOnlyWhetherShiftRegisterIsZero :
    Instr.poll.side = .host ∧ ((st 3 1#10 false true 2).sr = 0#10 ↔ (st 3 0x282#10 true true 2).sr = 0#10) := by
  decide
theorem witness_FrameWordLayout : 0 < 8 ∧ 7 < 8 := by decide
theorem witness_WireFrameDecodes :
    wireDecode [false, true, false, true, false, true, false, true, false, true] = some 0x55#8 := by decide
theorem witness_DecodeEncodeAgree :
    decode (.cw 0x141#10) = .load 0x41#8 ∧ decodeBytes [0xFF#8, 0x03#8] = .instr .init := by decide
theorem witness_IgnoredBitsHaveNoEffect :
    (io false false 0x12#8 true).rst = (io false false 0x34#8 true).rst ∧
    ((io false false 0x12#8 true).rst = false →
      (io false false 0x12#8 true).req = (io false false 0x34#8 true).req ∧
      ((io false false 0x12#8 true).req = true → (io false false 0x12#8 true).din = (io false false 0x34#8 true).din) ∧
      ((st 3 1#10 false true 2).ten = true → (io false false 0x12#8 true).cke = (io false false 0x34#8 true).cke)) := by
  decide
theorem witness_ResetMeetsInvariant : Config.wf { bitPeriodTicks := 1 } = true := by decide
theorem witness_StepRunsDecodedOperations :
    decodeCW (Inputs.commandWord (st 3 1#10 false true 2 [io true true 0x33#8 true]).ports) = .init ∧
    (decodeCW (Inputs.commandWord (st 3 1#10 false true 2 [io false true 0x33#8 true]).ports) = .load 0x33#8 ∧
      Instr.load 0x33#8 ≠ .init ∧
      decodeEV ((st 3 1#10 false true 2 [io false true 0x33#8 true]).eventVector
        (st 3 1#10 false true 2 [io false true 0x33#8 true]).ports.cke) = .tick ∧
      (∃ sh, exec (.load 0x33#8) (st 3 1#10 false true 2 [io false true 0x33#8 true]).passEdge = .next sh) ∧
      ∃ sh, exec .tick (st 3 1#10 false true 2 [io false true 0x33#8 true]).passEdge = .next sh) :=
  ⟨by decide, by decide, by decide, by decide, ⟨_, rfl⟩, _, rfl⟩
theorem witness_FetchWordRunsDecodedOperation :
    (decodeTableWord 16 0x1FF = some (.load 0xFF#8) ∧ (Instr.load 0xFF#8).side = .host) ∧
    (decodeTableWord 8 7 = some .tick ∧ Instr.tick.side = .timer) := by decide
theorem witness_InitExcludesEveryOtherOperation :
    (st 3 1#10 false true 2 [io true true 0x33#8 true]).ports.rst = true := rfl
theorem witness_TimerSideOperationOfAnEdge :
    ∃ t, step (st 3 1#10 false true 2 [io false false 0#8 true]) = .next t ∧ t.txd ≠ false :=
  ⟨_, rfl, by decide⟩
theorem witness_LoadInTheDrainingCycleIsRejected :
    (st 3 1#10 false true 2 [io false true 0x41#8 true, io false true 0x42#8 true]).Inv ∧
    (st 3 1#10 false true 2 [io false true 0x41#8 true, io false true 0x42#8 true]).sr = 1#10 ∧
    (st 3 1#10 false true 2 [io false true 0x41#8 true, io false true 0x42#8 true]).cnt = 3 - 1 ∧
    (io false true 0x41#8 true).rst = false ∧ (io false true 0x41#8 true).req = true ∧
    (io false true 0x41#8 true).cke = true ∧ (io false true 0x42#8 true).rst = false ∧
    (io false true 0x42#8 true).req = true :=
  ⟨inv_last _, rfl, rfl, rfl, rfl, rfl, rfl, rfl⟩
theorem witness_StepKeepsInvariant :
    (st 3 0x282#10 true true 2 [io false true 0x42#8 true]).Inv ∧
    ∃ t, step (st 3 0x282#10 true true 2 [io false true 0x42#8 true]) = .next t :=
  ⟨inv_fresh _, _, rfl⟩
theorem witness_EventOperationKeepsInvariant :
    (st 3 0x282#10 true true 2).Inv ∧ ∃ t, eventOp .tick (st 3 0x282#10 true true 2) = some t :=
  ⟨inv_fresh _, _, rfl⟩
theorem witness_ReachableStatesMeetInvariant :
    (st 1 0x3FF#10 false false 9).cfg.wf = true ∧ (io true false 0#8 false).rst = true ∧
    ∃ t, eventRun [.init, .load 0x41#8, .tick] (st 1 0x3FF#10 false false 9) = some t :=
  ⟨by decide, rfl, _, rfl⟩
theorem witness_ReachableShiftRegisterValues :
    (st 1 0x3FF#10 false false 9).cfg.wf = true ∧ ReachableSr 0#10 ∧ ReachableSr (frame 0x41#8 >>> 9) ∧
    (∃ t, eventRun [.init, .load 0x41#8, .tick] (st 1 0x3FF#10 false false 9) = some t ∧
      t.sr = frame 0x41#8 >>> 1) ∧
    ((io true false 0#8 false).rst = true ∧
      ∃ t, runEdges [io true false 0#8 false, io false true 0x41#8 false] (st 1 0x3FF#10 false false 9) = some t ∧
        t.sr = frame 0x41#8) ∧
    (st 3 0#10 true false 0).sr = 0#10 ∧ 0 ≤ 10 ∧ 10 ≤ 10 ∧ 0 ≤ 9 ∧ 9 ≤ 9 :=
  ⟨by decide, .inl rfl, .inr ⟨0x41#8, 9, by decide, rfl⟩, ⟨_, rfl, by decide⟩, ⟨rfl, _, rfl, by decide⟩,
    rfl, by decide, by decide, by decide, by decide⟩
theorem witness_CstepNeverWraps :
    (st 3 0x0A0#10 true true 0 [io false false 0#8 true]).Inv ∧
    (st 3 0x0A0#10 true true 0 [io false false 0#8 true]).cycleOps.timer = some .cstep ∧
    ∃ t, exec .cstep (st 3 0x0A0#10 true true 0 [io false false 0#8 true]) = .next t :=
  ⟨inv_mid _, by decide, _, rfl⟩
theorem witness_CounterWidthIsSmallest : 1 ≤ 2 ∧ 3 - 1 < 2 ^ 2 := by decide
theorem witness_NearestPeriodExistsAndTies :
    0 < 2 * 1 ∧ Config.isNearestPeriod 5 2 1 2 ∧ Config.isNearestPeriod 5 2 1 3 ∧ 2 < 3 := by decide
theorem witness_FrameIntegrity :
    (st 3 0#10 true false 0).sr = 0#10 ∧
    (∀ i ∈ [Instr.poll, .tick, .load 0x42#8], i = .tick ∨ i = .poll ∨ ∃ d, i = .load d) ∧
    [Instr.poll, .tick, .load 0x42#8].count .tick ≤ 9 ∧
    (∀ i ∈ ticks 9, i = .tick ∨ i = .poll ∨ ∃ d, i = .load d) ∧ (ticks 9).count .tick = 9 := by
  refine ⟨rfl, ?_, by decide, ?_, by decide⟩
  · intro i hi
    simp only [List.mem_cons, List.not_mem_nil, or_false] at hi
    rcases hi with rfl | rfl | rfl
    · exact .inr (.inl rfl)
    · exact .inl rfl
    · exact .inr (.inr ⟨_, rfl⟩)
  · intro i hi
    exact .inl (List.eq_of_mem_replicate hi)
theorem witness_FrameTakesTenTicks :
    (st 3 0x282#10 true true 2).Inv ∧ 9 < (st 3 0x282#10 true true 2).remaining ∧
    10 = (st 3 0x282#10 true true 2).remaining ∧ (st 3 0x282#10 true true 2).remaining < 11 ∧
    (st 3 0#10 true false 0).sr = 0#10 ∧ ∃ t, exec (.load 0x41#8) (st 3 0#10 true false 0) = .next t :=
  ⟨inv_fresh _, by decide, by decide, by decide, rfl, _, rfl⟩
theorem witness_NoTickAfterAnIdlePoll :
    (st 3 0#10 true false 0).Inv ∧
    (∃ t, eventOp .poll (st 3 0#10 true false 0) = some t ∧ t.out.busy = false ∧
      ∃ u, eventRun [.poll, .init] t = some u) ∧ ∀ i ∈ [Instr.poll, .init], ∀ c, i ≠ .load c := by
  refine ⟨inv_idle _, ⟨_, rfl, by decide, _, rfl⟩, ?_⟩
  intro i hi c
  simp only [List.mem_cons, List.not_mem_nil, or_false] at hi
  rcases hi with rfl | rfl <;> exact nofun
theorem witness_TaggedStateView : Tagged.ofSr 1#10 = Tagged.ofSr 1#10 ∧ (1#10 : SrWord) ≠ 0#10 := by decide
theorem witness_EventLevelNeedsNoCounter :
    (st 3 0x282#10 true true 2).eventView = (st 1 0x282#10 true true 0).eventView := rfl
theorem witness_ClockEdgeRefinesEventLevel :
    (st 3 1#10 false true 2 [io false true 0x42#8 true]).Inv ∧
    ∃ t, step (st 3 1#10 false true 2 [io false true 0x42#8 true]) = .next t :=
  ⟨inv_last _, _, rfl⟩
theorem witness_BitPeriodInStrobes :
    (st 3 0#10 true false 0).Inv ∧ (st 3 0#10 true false 0).sr = 0#10 ∧
    (io false true 0xA5#8 true).rst = false ∧ (io false true 0xA5#8 true).req = true ∧
    (∀ q ∈ List.replicate 29 (io false true 0x42#8 true), q.rst = false) ∧
    strobes (List.replicate 29 (io false true 0x42#8 true)) < 10 * 3 ∧
    List.replicate 30 (io false true 0x42#8 true) =
      List.replicate 29 (io false true 0x42#8 true) ++ [io false true 0x42#8 true] ∧
    strobes (List.replicate 30 (io false true 0x42#8 true)) = 10 * 3 ∧
    strobes (List.replicate 2 (io false true 0x42#8 true)) / 3 = 0 ∧
    strobes (List.replicate 3 (io false true 0x42#8 true)) / 3 = 1 :=
  ⟨inv_idle _, rfl, rfl, rfl, by decide, by decide, by decide, by decide, by decide, by decide⟩
theorem witness_StopBitLastsABitPeriod :
    (st 3 0#10 true false 0).Inv ∧ (st 3 0#10 true false 0).sr = 0#10 ∧
    (∀ q ∈ List.replicate 2 (io false true 0x42#8 true), q.rst = false) ∧
    strobes (List.replicate 2 (io false true 0x42#8 true)) < 3 :=
  ⟨inv_idle _, rfl, by decide, by decide⟩

/-- A schedule that alternates host and timer. -/
def alternating (n : Nat) : List Turn := (List.replicate n [Turn.host, Turn.timer]).flatten

theorem fair_pair : FairRound [Turn.host, Turn.timer] := ⟨by decide, by decide⟩

theorem witness_SendStrSendsWholeFramesInOrder :
    (st 3 0#10 true false 0).Inv ∧ (st 3 0#10 true false 0).sr = 0#10 ∧
    (Bench.run (alternating 11)
      { proc := .sendStr [0x41#8], block := st 3 0#10 true false 0, wire := [] }).proc = .done :=
  ⟨inv_idle _, rfl, by decide⟩
theorem witness_SendStrWhileBusyLosesItsFirstCharacter :
    (st 3 1#10 false true 2).Inv ∧ (st 3 1#10 false true 2).sr ≠ 0#10 ∧
    (Bench.run [.host, .timer, .host]
      { proc := .sendStr [0x41#8], block := st 3 1#10 false true 2, wire := [] }).proc = .done :=
  ⟨inv_last _, by decide, by decide⟩
theorem witness_SendStrTerminatesUnderFairness :
    (st 3 0x282#10 true true 2).Inv ∧
    (∀ r ∈ List.replicate 12 [Turn.host, Turn.timer], FairRound r) ∧
    12 * [0x41#8].length ≤ (List.replicate 12 [Turn.host, Turn.timer]).length :=
  ⟨inv_fresh _, fun _ hr => List.eq_of_mem_replicate hr ▸ fair_pair, by decide⟩
theorem witness_RetryEndsAndLosesNothing :
    (st 3 0x282#10 true true 2).Inv ∧
    (∀ r ∈ List.replicate 11 [Turn.host, Turn.timer], FairRound r) ∧
    11 ≤ (List.replicate 11 [Turn.host, Turn.timer]).length ∧
    (Bench.run [.timer, .host]
      { proc := .retry 0x42#8, block := st 3 1#10 false true 2, wire := [] }).proc = .done ∧
    (st 3 1#10 false true 2).Inv :=
  ⟨inv_fresh _, fun _ hr => List.eq_of_mem_replicate hr ▸ fair_pair, by decide, by decide, inv_last _⟩
theorem witness_HostProcedureOnThePorts :
    (st 3 1#10 false true 2).Inv ∧
    (({ proc := .retry 0x42#8, block := st 3 1#10 false true 2, wire := [] } : Bench).driven true).cycleOps.timer
      = some .tick :=
  ⟨inv_last _, by decide⟩

end Sys2Proof.Tests
end

/-! ## Widths: `bitlen v` is the least number of bits that holds `v`, and what
follows for the width of the tick counter (00_scope.md R12, R16). -/

namespace Sys2Proof.Machine

/-- The one fact about `bitlen`: `v` fits into `w` bits exactly when `w` is at least `bitlen v`. -/
theorem bitlen_le_iff {v w : Nat} : bitlen v ≤ w ↔ v < 2 ^ w := by
  by_cases hv : v = 0
  · simp [bitlen, hv]
  · rw [bitlen, if_neg hv, Nat.succ_le_iff, Nat.log2_lt hv]

/-- The widths that `CNT` could have are exactly those from `CNT_W` on. -/
theorem cntW_le_iff {c : Config} {w : Nat} :
    cntW c ≤ w ↔ 1 ≤ w ∧ c.bitPeriodTicks - 1 < 2 ^ w := by
  rw [cntW, Nat.max_le, bitlen_le_iff]

/-- Settles O38: `CNT_W` is itself one of the widths that `cntW_le_iff` describes, and none of them
is below it. -/
theorem counterWidthIsSmallest : Obligations.CounterWidthIsSmallest := by
  intro c
  obtain ⟨hpos, hholds⟩ := cntW_le_iff.mp (Nat.le_refl (cntW c))
  exact ⟨hpos, hholds, fun w hw hlt => cntW_le_iff.mpr ⟨hw, hlt⟩⟩

end Sys2Proof.Machine

/-! ## What each operation does, as a total function of the state

No operation faults and none is refused (60_exceptions.md R180), so `exec` is `effect` followed by
`.next`; what an operation writes and keeps is said once about `effect`. -/

namespace Sys2Proof.Machine

/-- The state an operation leads to; `exec_eq_effect` ties it to `exec`. -/
def effect (i : Instr) (s : State) : State :=
  match i with
  | .init => (s.respond false).resetElements
  | .load c => if s.sr = 0#10 then (s.respond true).loadFrame c else s.respond false
  | .poll => s.respond false
  | .tick => s.shiftOut.endFrame
  | .cstep => s.countUp
  | .hold => s
  | .idle => s

theorem exec_eq_effect (i : Instr) (s : State) : exec i s = .next (effect i s) := by
  cases i with
  | load c =>
    by_cases hz : s.sr = 0#10
    · simp [effect, hz, exec_load_idle]
    · simp [effect, hz, exec_load_busy]
  | init | poll | tick | cstep | hold | idle => rfl

theorem exec_eq_next_iff {i : Instr} {s t : State} : exec i s = .next t ↔ effect i s = t := by
  rw [exec_eq_effect, Host.Outcome.next.injEq]

theorem effect_load_idle {s : State} (c : Byte) (hz : s.sr = 0#10) :
    effect (.load c) s = (s.respond true).loadFrame c := if_pos hz

theorem effect_load_busy {s : State} (c : Byte) (hz : s.sr ≠ 0#10) :
    effect (.load c) s = s.respond false := if_neg hz

theorem effect_tick_sr (s : State) : (effect .tick s).sr = s.sr >>> 1 := by
  rw [effect, State.endFrame_shiftOut_eq]

theorem effect_tick_ten (s : State) :
    (effect .tick s).ten = if s.sr >>> 1 = 0#10 then false else s.ten := by
  rw [effect, State.endFrame_shiftOut_eq]

/-! ### The parts of the state no operation writes -/

theorem effect_frame (i : Instr) (s : State) :
    (effect i s).cfg = s.cfg ∧ (effect i s).inputs = s.inputs ∧ (effect i s).edges = s.edges := by
  cases i with
  | load c => rw [effect]; split <;> exact ⟨rfl, rfl, rfl⟩
  | tick => rw [effect, State.endFrame_shiftOut_eq]; exact ⟨rfl, rfl, rfl⟩
  | init | poll | cstep | hold | idle => exact ⟨rfl, rfl, rfl⟩

@[simp] theorem effect_cfg (i : Instr) (s : State) : (effect i s).cfg = s.cfg :=
  (effect_frame i s).1

/-- Only a host operation is answered. -/
theorem effect_out_of_timer {i : Instr} (s : State) (hi : i.side ≠ .host) :
    (effect i s).out = s.out := by
  cases i with
  | init | load c | poll => exact absurd rfl hi
  | tick => rw [effect, State.endFrame_shiftOut_eq]
  | cstep | hold | idle => rfl

/-! ### What moves each state element (10_state.md section 1, "written by") -/

theorem writer_of_sr {i : Instr} {s : State} (h : (effect i s).sr ≠ s.sr) :
    i = .init ∨ i = .tick ∨ ∃ c, i = .load c ∧ s.sr = 0#10 := by
  cases i with
  | init => exact .inl rfl
  | tick => exact .inr (.inl rfl)
  | load c =>
    by_cases hz : s.sr = 0#10
    · exact .inr (.inr ⟨c, rfl, hz⟩)
    · rw [effect_load_busy c hz] at h
      exact absurd rfl h
  | poll | cstep | hold | idle => exact absurd rfl h

theorem writer_of_txd {i : Instr} {s : State} (h : (effect i s).txd ≠ s.txd) :
    i = .init ∨ i = .tick := by
  cases i with
  | init => exact .inl rfl
  | tick => exact .inr rfl
  | load c =>
    rw [effect] at h
    split at h <;> exact absurd rfl h
  | poll | cstep | hold | idle => exact absurd rfl h

/-- A TICK that writes TEN is the one that drains SR (41_bit_emitter.md R123). -/
theorem writer_of_ten {i : Instr} {s : State} (h : (effect i s).ten ≠ s.ten) :
    i = .init ∨ (i = .tick ∧ (effect i s).sr = 0#10) ∨ ∃ c, i = .load c ∧ s.sr = 0#10 := by
  cases i with
  | init => exact .inl rfl
  | tick =>
    refine .inr (.inl ⟨rfl, ?_⟩)
    rw [effect_tick_ten] at h
    rw [effect_tick_sr]
    by_contra hz
    exact h (if_neg hz)
  | load c =>
    by_cases hz : s.sr = 0#10
    · exact .inr (.inr ⟨c, rfl, hz⟩)
    · rw [effect_load_busy c hz] at h
      exact absurd rfl h
  | poll | cstep | hold | idle => exact absurd rfl h

theorem writer_of_cnt {i : Instr} {s : State} (h : (effect i s).cnt ≠ s.cnt) :
    i = .init ∨ i = .tick ∨ i = .cstep := by
  cases i with
  | init => exact .inl rfl
  | tick => exact .inr (.inl rfl)
  | cstep => exact .inr (.inr rfl)
  | load c =>
    rw [effect] at h
    split at h <;> exact absurd rfl h
  | poll | hold | idle => exact absurd rfl h

/-- Settles O13: one lemma per state element, and the frame of `effect` for the rest. -/
theorem onlyNamedOperationsWrite : Obligations.OnlyNamedOperationsWrite := by
  intro i s t ht
  obtain rfl := exec_eq_next_iff.mp ht
  exact ⟨writer_of_sr, writer_of_txd, writer_of_ten, writer_of_cnt,
    fun hout => by_contra fun hi => hout (effect_out_of_timer s hi),
    effect_frame i s⟩

/-! ### The answer to the host -/

/-- The answer bit `acc` of an operation: only a LOAD is ever accepted. -/
def accOf (i : Instr) (s : State) : Bool :=
  match i with
  | .load _ => s.accepts
  | _ => false

theorem effect_out_of_host {i : Instr} (s : State) (hi : i.side = .host) :
    (effect i s).out = s.outputs (accOf i s) := by
  cases i with
  | init | poll => rfl
  | load c =>
    by_cases hz : s.sr = 0#10
    · rw [effect_load_idle c hz, accOf, (State.accepts_eq_true s).mpr hz]
      rfl
    · rw [effect_load_busy c hz, accOf, (State.accepts_eq_false s).mpr hz]
      rfl
  | tick | cstep | hold | idle => exact absurd hi nofun

/-- Settles O17: `acc` and `busy` of an answer are functions of whether SR is 0. -/
theorem hostSeesOnlyWhetherShiftRegisterIsZero :
    Obligations.HostSeesOnlyWhetherShiftRegisterIsZero := by
  intro i s t hi hz
  refine ⟨_, _, exec_eq_effect i s, exec_eq_effect i t, ?_⟩
  have hbusy : s.busy = t.busy := by simp [State.busy, hz]
  have haccepts : s.accepts = t.accepts := by simp [State.accepts, hz]
  rw [effect_out_of_host s hi, effect_out_of_host t hi]
  refine ⟨?_, hbusy⟩
  cases i with
  | load c => exact haccepts
  | init | poll | tick | cstep | hold | idle => rfl

end Sys2Proof.Machine

/-! ## The frame word and its shifts, as numbers (30_encoding.md R71; 10_state.md R26, R31) -/

namespace Sys2Proof.Machine

/-- The stop bit stands above the eight character bits, the start bit 0 below them. -/
theorem frame_toNat (c : Byte) : (frame c).toNat = 512 + 2 * c.toNat := by
  revert c; decide

/-- Every place shifted takes one bit off the length, while there is one. -/
theorem bitlen_ushiftRight {w : Nat} (v : BitVec w) (k : Nat) :
    bitlen (v >>> k).toNat = bitlen v.toNat - k := by
  refine eq_of_forall_ge_iff fun n => ?_
  rw [bitlen_le_iff, Nat.sub_le_iff_le_add, bitlen_le_iff, BitVec.toNat_ushiftRight,
    Nat.shiftRight_eq_div_pow, Nat.div_lt_iff_lt_mul (Nat.two_pow_pos k), Nat.pow_add]

theorem bitlen_eq_zero_iff {v : Nat} : bitlen v = 0 ↔ v = 0 := by
  rw [← Nat.le_zero, bitlen_le_iff, Nat.pow_zero, Nat.lt_one_iff]

theorem bitlen_toNat_eq_zero_iff {v : SrWord} : bitlen v.toNat = 0 ↔ v = 0#10 := by
  rw [bitlen_eq_zero_iff, BitVec.toNat_eq, BitVec.toNat_zero]

theorem bitlen_frame (c : Byte) : bitlen (frame c).toNat = 10 := by
  have hc : c.toNat < 256 := c.isLt
  have hle : bitlen (frame c).toNat ≤ 10 := bitlen_le_iff.mpr (frame c).isLt
  have hgt : ¬ bitlen (frame c).toNat ≤ 9 := by
    rw [bitlen_le_iff, frame_toNat]
    omega
  omega

theorem bitlen_frame_shift (c : Byte) (k : Nat) : bitlen (frame c >>> k).toNat = 10 - k := by
  rw [bitlen_ushiftRight, bitlen_frame]

theorem frame_shift_eq_zero_iff {c : Byte} {k : Nat} : frame c >>> k = 0#10 ↔ 10 ≤ k := by
  rw [← bitlen_toNat_eq_zero_iff, bitlen_frame_shift, Nat.sub_eq_zero_iff_le]

/-- After nine shifts the stop bit alone is left. -/
theorem frame_shift_nine (c : Byte) : frame c >>> 9 = 1#10 := by
  have hc : c.toNat < 256 := c.isLt
  apply BitVec.eq_of_toNat_eq
  rw [BitVec.toNat_ushiftRight, frame_toNat, Nat.shiftRight_eq_div_pow]
  simp only [BitVec.toNat_ofNat]
  omega

/-- Nothing is left after one more shift of 0 or of the stop bit alone. -/
theorem shift_one_eq_zero_iff {v : SrWord} : v >>> 1 = 0#10 ↔ v = 0#10 ∨ v = 1#10 := by
  bv_omega

/-! ### The reachable values of SR (10_state.md R31) -/

theorem ReachableSr.zero : ReachableSr 0#10 := .inl rfl

theorem ReachableSr.frame_shift (c : Byte) (k : Nat) : ReachableSr (frame c >>> k) := by
  by_cases hk : k ≤ 9
  · exact .inr ⟨c, k, hk, rfl⟩
  · exact .inl (frame_shift_eq_zero_iff.mpr (Nat.lt_of_not_le hk))

theorem ReachableSr.shift_one {v : SrWord} (h : ReachableSr v) : ReachableSr (v >>> 1) := by
  obtain rfl | ⟨c, k, -, rfl⟩ := h
  · exact .inl rfl
  · rw [shift_shift]
    exact .frame_shift c (k + 1)

end Sys2Proof.Machine

/-! ## The invariant, operation by operation (10_state.md section 4) -/

namespace Sys2Proof.Machine

/-- When the block performs an operation: TICK while armed (41_bit_emitter.md R124), CSTEP while
armed and below the compare value (42_timing_source.md R142), the others in any state. -/
def State.Enables (s : State) (i : Instr) : Prop :=
  match i with
  | .tick => s.ten = true
  | .cstep => s.ten = true ∧ s.cnt ≠ s.cfg.bitPeriodTicks - 1
  | _ => True

/-- The reset values of the elements meet the invariant for every legal BIT_PERIOD_TICKS. -/
theorem inv_of_reset_elements {s : State} (hcfg : s.cfg.wf = true)
    (he : s.elements = { sr := 0#10, txd := true, ten := false, cnt := 0 }) : s.Inv := by
  simp only [State.elements, Elements.mk.injEq] at he
  obtain ⟨hsr, htxd, hten, hcnt⟩ := he
  have hperiod : 1 ≤ s.cfg.bitPeriodTicks := by simpa [Config.wf] using hcfg
  exact
    { period_pos := hcfg
      idle_iff := by simp [hsr, hten]
      sr_reachable := hsr ▸ .zero
      cnt_lt := hcnt ▸ hperiod
      cnt_idle := fun _ => hcnt
      idle_high := fun _ => htxd
      fresh_high := fun _ => htxd }

theorem elements_effect_init (s : State) :
    (effect .init s).elements = { sr := 0#10, txd := true, ten := false, cnt := 0 } := by
  rw [effect, State.resetElements_eq]
  rfl

theorem inv_effect_init {s : State} (hcfg : s.cfg.wf = true) : (effect .init s).Inv :=
  inv_of_reset_elements (by rwa [effect_cfg]) (elements_effect_init s)

theorem State.Inv.respond {s : State} (h : s.Inv) (acc : Bool) : (s.respond acc).Inv :=
  h.congr rfl rfl

theorem State.Inv.passEdge {s : State} (h : s.Inv) : s.passEdge.Inv :=
  h.congr rfl rfl

/-- An accepted LOAD finds the line high and the counter at 0, and leaves them so. -/
theorem State.Inv.loadFrame {s : State} (h : s.Inv) (hz : s.sr = 0#10) (c : Byte) :
    (s.loadFrame c).Inv where
  period_pos := h.period_pos
  idle_iff := iff_of_false (frame_ne_zero c) nofun
  sr_reachable := .frame_shift c 0
  cnt_lt := h.cnt_lt
  cnt_idle := nofun
  idle_high := fun _ => h.idle_high hz
  fresh_high := fun _ => h.idle_high hz

/-- The TICK that drains SR puts the stop bit on the line; any other clears bit 9 of SR. -/
theorem State.Inv.tick {s : State} (h : s.Inv) (hten : s.ten = true) : (effect .tick s).Inv := by
  have hbusy : s.sr ≠ 0#10 := fun hz => by simp [h.idle_iff.mp hz] at hten
  rw [effect, State.endFrame_shiftOut_eq]
  exact
    { period_pos := h.period_pos
      idle_iff := by simp [hten]
      sr_reachable := h.sr_reachable.shift_one
      cnt_lt := h.one_le_period
      cnt_idle := fun _ => rfl
      idle_high := fun hdrained => by
        obtain hz | hstop := shift_one_eq_zero_iff.mp hdrained
        · exact absurd hz hbusy
        · rw [hstop]; rfl
      fresh_high := fun hb => by simp at hb }

/-- Below the compare value counting up stays below the period, with or without the wrap. -/
theorem State.Inv.countUp {s : State} (h : s.Inv) (hten : s.ten = true)
    (hcnt : s.cnt ≠ s.cfg.bitPeriodTicks - 1) : s.countUp.Inv where
  period_pos := h.period_pos
  idle_iff := h.idle_iff
  sr_reachable := h.sr_reachable
  cnt_lt := by
    have hle := Nat.mod_le (s.cnt + 1) (2 ^ cntW s.cfg)
    have hlt := h.cnt_lt
    simp only [State.countUp_eq]
    omega
  cnt_idle := fun ht => absurd (hten.symm.trans ht) nofun
  idle_high := h.idle_high
  fresh_high := h.fresh_high

theorem State.Inv.inv_effect {i : Instr} {s : State} (h : s.Inv) (hi : s.Enables i) :
    (effect i s).Inv := by
  cases i with
  | init => exact inv_effect_init h.period_pos
  | load c =>
    by_cases hz : s.sr = 0#10
    · rw [effect_load_idle c hz]
      exact (h.respond true).loadFrame hz c
    · rw [effect_load_busy c hz]
      exact h.respond false
  | poll => exact h.respond false
  | tick => exact h.tick hi
  | cstep =>
    obtain ⟨hten, hcnt⟩ := hi
    exact h.countUp hten hcnt
  | hold | idle => exact h

/-- Settles O25: the reset state holds the reset values. -/
theorem resetMeetsInvariant : Obligations.ResetMeetsInvariant :=
  have hreset (cfg : Config) (hcfg : cfg.wf = true) : (State.resetOf cfg).Inv :=
    inv_of_reset_elements hcfg rfl
  ⟨hreset, hreset Config.atReset rfl⟩

end Sys2Proof.Machine

/-! ## The event level: its operations are effects -/

namespace Sys2Proof.Machine

theorem eventOp_eq_some {i : Instr} {s t : State} (h : eventOp i s = some t) :
    s.Enables i ∧ effect i s = t := by
  cases i with
  | init | poll => exact ⟨trivial, Option.some.inj h⟩
  | load c =>
    rw [eventOp, exec_eq_effect] at h
    exact ⟨trivial, Option.some.inj h⟩
  | tick =>
    cases hten : s.ten with
    | false => rw [eventOp_tick_disarmed s hten] at h; exact absurd h nofun
    | true => rw [eventOp_tick_armed s hten] at h; exact ⟨hten, Option.some.inj h⟩
  | cstep | hold | idle => exact absurd h nofun

/-- Settles O34: the event level performs TICK only while armed, and no CSTEP at all. -/
theorem eventOperationKeepsInvariant : Obligations.EventOperationKeepsInvariant := by
  intro i s t hs ht
  obtain ⟨henabled, rfl⟩ := eventOp_eq_some ht
  exact hs.inv_effect henabled

theorem State.Inv.inv_eventRun {ops : List Instr} {s t : State} (h : s.Inv)
    (ht : eventRun ops s = some t) : t.Inv := by
  induction ops generalizing s with
  | nil => exact Option.some.inj ht ▸ h
  | cons i is ih =>
    simp only [eventRun] at ht
    split at ht
    · next u hu => exact ih (eventOperationKeepsInvariant i s u h hu) ht
    · exact absurd ht nofun

end Sys2Proof.Machine

/-! ## The cycle level: a step is two effects taken together (43_cycle_step.md R166) -/

namespace Sys2Proof.Machine

/-- The host's operation at the coming edge, if it is not an INIT. -/
def State.hostOp (s : State) : Instr := if s.ports.req then .load s.ports.din else .poll

/-- The timer's operation at the coming edge, if that is not an INIT. -/
def State.timerOp (s : State) : Instr :=
  if s.ten then
    if s.ports.cke then (if s.compareMatch then .tick else .cstep) else .hold
  else .idle

theorem cycleOps_of_rst {s : State} (hr : s.ports.rst = true) :
    s.cycleOps = { host := .init, timer := none } := by
  rw [State.cycleOps_eq, if_pos hr]

theorem cycleOps_of_not_rst {s : State} (hr : s.ports.rst = false) :
    s.cycleOps = { host := s.hostOp, timer := some s.timerOp } := by
  rw [State.cycleOps_eq, hr]
  rfl

theorem step_of_rst {s : State} (hr : s.ports.rst = true) :
    step s = .next (effect .init s.passEdge) := by
  rw [step_eq_runOps, cycleOps_of_rst hr, runOps_none, exec_eq_effect]

theorem step_of_not_rst {s : State} (hr : s.ports.rst = false) :
    step s = .next (commit (effect s.timerOp s.passEdge) (effect s.hostOp s.passEdge)) := by
  rw [step_eq_runOps, cycleOps_of_not_rst hr,
    runOps_some (exec_eq_effect _ _) (exec_eq_effect _ _)]

theorem step_total (s : State) : ∃ t, step s = .next t := by
  cases hr : s.ports.rst
  · exact ⟨_, step_of_not_rst hr⟩
  · exact ⟨_, step_of_rst hr⟩

theorem State.enables_timerOp (s : State) : s.Enables s.timerOp := by
  unfold State.timerOp
  split
  case isFalse => trivial
  case isTrue hten =>
    split
    case isFalse => trivial
    case isTrue =>
      split
      case isTrue => exact hten
      case isFalse hm =>
        exact ⟨hten, (State.compareMatch_eq_false s).mp (Bool.eq_false_of_not_eq_true hm)⟩

theorem timerOp_of_disarmed {s : State} (hten : s.ten = false) : s.timerOp = .idle := by
  simp [State.timerOp, hten]

theorem State.enables_passEdge {s : State} {i : Instr} : s.passEdge.Enables i ↔ s.Enables i := by
  cases i <;> rfl

theorem hostOp_of_req {s : State} (hreq : s.ports.req = true) : s.hostOp = .load s.ports.din := by
  rw [State.hostOp, if_pos hreq]

theorem hostOp_of_not_req {s : State} (hreq : s.ports.req = false) : s.hostOp = .poll := by
  rw [State.hostOp, hreq]
  rfl

/-- Only a request that meets an idle block is accepted (40_frame_loader.md R100). -/
theorem hostOp_accepted {s : State} (ha : (effect s.hostOp s.passEdge).out.acc = true) :
    s.sr = 0#10 ∧ s.ports.req = true := by
  cases hreq : s.ports.req with
  | false =>
    rw [hostOp_of_not_req hreq] at ha
    exact absurd ha nofun
  | true =>
    rw [hostOp_of_req hreq, effect_out_of_host _ rfl] at ha
    exact ⟨(State.accepts_eq_true s).mp ha, rfl⟩

/-- IDLE beside an accepted LOAD adds nothing to it. -/
theorem commit_idle_load {s : State} (c : Byte) (hz : s.sr = 0#10) :
    commit (effect .idle s) (effect (.load c) s) = effect (.load c) s := by
  rw [effect_load_idle c hz, commit_of_acc _ _ rfl]
  rfl

/-- In a reachable state an accepted LOAD finds the block disarmed, so the edge does what the LOAD
does. -/
theorem State.Inv.step_of_load {s : State} (h : s.Inv) (hr : s.ports.rst = false)
    (hreq : s.ports.req = true) (hz : s.sr = 0#10) :
    step s = .next (effect (.load s.ports.din) s.passEdge) := by
  rw [step_of_not_rst hr, hostOp_of_req hreq, timerOp_of_disarmed (h.idle_iff.mp hz),
    commit_idle_load (s := s.passEdge) _ hz]

theorem step_of_poll {s : State} (hr : s.ports.rst = false) (hreq : s.ports.req = false) :
    step s = .next { effect s.timerOp s.passEdge with out := s.outputs false } := by
  rw [step_of_not_rst hr, hostOp_of_not_req hreq, commit_of_not_acc _ _ rfl]
  rfl

/-- In a reachable state an edge does one thing: the INIT, the accepted LOAD, or the timer's
operation with the host answered beside it. -/
theorem State.Inv.step_cases {s t : State} (h : s.Inv) (ht : step s = .next t) :
    t = effect .init s.passEdge ∨
    (s.sr = 0#10 ∧ t = effect (.load s.ports.din) s.passEdge) ∨
    ∃ out, t = { effect s.timerOp s.passEdge with out := out } := by
  cases hr : s.ports.rst with
  | true =>
    rw [step_of_rst hr, Host.Outcome.next.injEq] at ht
    exact .inl ht.symm
  | false =>
    cases ha : (effect s.hostOp s.passEdge).out.acc with
    | false =>
      rw [step_of_not_rst hr, commit_of_not_acc _ _ ha, Host.Outcome.next.injEq] at ht
      exact .inr (.inr ⟨_, ht.symm⟩)
    | true =>
      obtain ⟨hz, hreq⟩ := hostOp_accepted ha
      rw [h.step_of_load hr hreq hz, Host.Outcome.next.injEq] at ht
      exact .inr (.inl ⟨hz, ht.symm⟩)

/-- Settles O33: whichever one thing the edge does, the operation is enabled and keeps the
invariant. -/
theorem stepKeepsInvariant : Obligations.StepKeepsInvariant := by
  intro s t hs ht
  obtain rfl | ⟨-, rfl⟩ | ⟨out, rfl⟩ := hs.step_cases ht
  · exact inv_effect_init hs.period_pos
  · exact hs.passEdge.inv_effect trivial
  · exact (hs.passEdge.inv_effect (State.enables_passEdge.mpr s.enables_timerOp)).congr rfl rfl

theorem State.Inv.exists_runEdges {s : State} (h : s.Inv) (ps : List Inputs) :
    ∃ t, runEdges ps s = some t ∧ t.Inv := by
  induction ps generalizing s with
  | nil => exact ⟨s, rfl, h⟩
  | cons p ps ih =>
    obtain ⟨u, hu⟩ := step_total { s with inputs := [p] }
    simp only [runEdges, hu, nextOf]
    exact ih (stepKeepsInvariant _ u (h.with_inputs [p]) hu)

/-- The edges after an INIT edge run from the state INIT leads to. -/
theorem runEdges_init {p : Inputs} (ps : List Inputs) (s : State) (hp : p.rst = true) :
    runEdges (p :: ps) s =
      runEdges ps (effect .init ({ s with inputs := [p] } : State).passEdge) := by
  rw [runEdges, step_of_rst (s := { s with inputs := [p] }) hp, nextOf]

/-- Settles O35: INIT brings the invariant, whatever stood before, and every operation and every
edge after it keeps the invariant. -/
theorem reachableStatesMeetInvariant : Obligations.ReachableStatesMeetInvariant := by
  constructor
  · intro ops s t hcfg ht
    exact (inv_effect_init hcfg).inv_eventRun ht
  · intro p ps s hcfg hp
    have hinit : (effect .init ({ s with inputs := [p] } : State).passEdge).Inv :=
      inv_effect_init hcfg
    rw [runEdges_init ps s hp]
    exact hinit.exists_runEdges ps

end Sys2Proof.Machine

/-! ## The tagged view of SR (10_state.md R34) -/

namespace Sys2Proof.Machine

theorem ofSr_zero : Tagged.ofSr 0#10 = .idle := rfl

theorem ofSr_of_ne_zero {v : SrWord} (hv : v ≠ 0#10) :
    Tagged.ofSr v = .sending (bitlen v.toNat) v := if_neg hv

theorem ofSr_frame (c : Byte) : Tagged.ofSr (frame c) = .sending 10 (frame c) := by
  rw [ofSr_of_ne_zero (frame_ne_zero c), bitlen_frame]

theorem ofSr_injective {v w : SrWord} (h : Tagged.ofSr v = Tagged.ofSr w) : v = w := by
  by_cases hv : v = 0#10 <;> by_cases hw : w = 0#10
  · rw [hv, hw]
  · rw [hv, ofSr_zero, ofSr_of_ne_zero hw] at h
    exact absurd h nofun
  · rw [hw, ofSr_zero, ofSr_of_ne_zero hv] at h
    exact absurd h nofun
  · rw [ofSr_of_ne_zero hv, ofSr_of_ne_zero hw, Tagged.sending.injEq] at h
    exact h.2

/-- The shift of a TICK counts the remaining bits down, and `Sending{1, 1}` goes to `Idle`. -/
theorem ofSr_shift_one (v : SrWord) :
    Tagged.ofSr (v >>> 1) = Tagged.after .tick (Tagged.ofSr v) := by
  by_cases hv : v = 0#10
  · rw [hv]; rfl
  · have hlast : v >>> 1 = 0#10 ↔ bitlen v.toNat = 1 := by
      have hlen := bitlen_toNat_eq_zero_iff.not.mpr hv
      rw [← bitlen_toNat_eq_zero_iff, bitlen_ushiftRight]
      omega
    rw [ofSr_of_ne_zero hv, Tagged.after, Tagged.ofSr, bitlen_ushiftRight]
    exact if_congr hlast rfl rfl

theorem after_of_not_idle {v : SrWord} (hv : v ≠ 0#10) (c : Byte) :
    Tagged.after (.load c) (Tagged.ofSr v) = Tagged.ofSr v := by
  rw [ofSr_of_ne_zero hv, Tagged.after]

theorem ofSr_effect (i : Instr) (s : State) :
    Tagged.ofSr (effect i s).sr = Tagged.after i (Tagged.ofSr s.sr) := by
  cases i with
  | init => rw [effect, State.resetElements_eq]; exact ofSr_zero
  | load c =>
    by_cases hz : s.sr = 0#10
    · rw [effect_load_idle c hz, hz]
      exact ofSr_frame c
    · rw [effect_load_busy c hz, after_of_not_idle hz]
      rfl
  | tick => rw [effect_tick_sr, ofSr_shift_one]
  | poll | cstep | hold | idle => rfl

/-- Settles O43: every operation's effect on SR is the transition of the tagged state. -/
theorem taggedStateView : Obligations.TaggedStateView :=
  ⟨fun i s => ⟨_, exec_eq_effect i s, ofSr_effect i s⟩, fun _ _ => ofSr_injective, ofSr_zero,
    fun _ => ofSr_of_ne_zero, ofSr_frame⟩

end Sys2Proof.Machine

/-! ## Runs that reach a given value of SR (10_state.md R31) -/

namespace Sys2Proof.Machine

/-! ### At the event level: one TICK a place -/

theorem eventRun_cons {i : Instr} {s t : State} (is : List Instr) (h : eventOp i s = some t) :
    eventRun (i :: is) s = eventRun is t := by
  rw [eventRun, h]

/-- TICKs shift SR one place each, as long as there is a bit to send. -/
theorem eventRun_ticks {k : Nat} {s : State} (hten : s.sr ≠ 0#10 → s.ten = true)
    (hk : k ≤ s.remaining) : ∃ t, eventRun (ticks k) s = some t ∧ t.sr = s.sr >>> k := by
  induction k generalizing s with
  | zero => exact ⟨s, rfl, (BitVec.ushiftRight_zero _).symm⟩
  | succ k ih =>
    have hbusy : s.sr ≠ 0#10 := by
      rw [Ne, ← bitlen_toNat_eq_zero_iff, ← State.remaining]
      omega
    obtain ⟨t, ht, hsr⟩ := @ih (effect .tick s)
      (fun hz => by
        rw [effect_tick_sr] at hz
        rw [effect_tick_ten, if_neg hz, hten hbusy])
      (by
        rw [State.remaining, effect_tick_sr, bitlen_ushiftRight, ← State.remaining]
        omega)
    refine ⟨t, ?_, ?_⟩
    · rwa [ticks, List.replicate_succ, eventRun_cons _ (eventOp_tick_armed s (hten hbusy))]
    · rw [hsr, effect_tick_sr, shift_shift, Nat.add_comm]

/-- After an accepted LOAD and `k` TICKs SR holds the frame shifted by `k` places. -/
theorem eventRun_load_ticks {s : State} (hz : s.sr = 0#10) (c : Byte) {k : Nat} (hk : k ≤ 10) :
    ∃ t, eventRun (.load c :: ticks k) s = some t ∧ t.sr = frame c >>> k := by
  rw [eventRun_cons _ (eventOp_load_idle s c hz)]
  exact eventRun_ticks (fun _ => rfl) (hk.trans_eq (bitlen_frame c).symm)

theorem ReachableSr.exists_eventRun {v : SrWord} (hv : ReachableSr v) {s : State}
    (hz : s.sr = 0#10) : ∃ ops t, eventRun ops s = some t ∧ t.sr = v := by
  obtain rfl | ⟨c, k, hk, rfl⟩ := hv
  · exact ⟨[], s, rfl, hz⟩
  · exact ⟨_, eventRun_load_ticks hz c (hk.trans (by decide))⟩

/-! ### At the cycle level: a bit period of strobes a place -/

theorem runEdges_append (a b : List Inputs) (s : State) :
    runEdges (a ++ b) s = (runEdges a s).bind (runEdges b) := by
  induction a generalizing s with
  | nil => rfl
  | cons p ps ih =>
    simp only [List.cons_append, runEdges]
    split
    · exact ih _
    · rfl

theorem runEdges_cons {p : Inputs} {s t : State} (ps : List Inputs)
    (h : step { s with inputs := [p] } = .next t) : runEdges (p :: ps) s = runEdges ps t := by
  rw [runEdges, h, nextOf]

theorem State.Inv.inv_runEdges {ps : List Inputs} {s t : State} (h : s.Inv)
    (ht : runEdges ps s = some t) : t.Inv := by
  obtain ⟨u, hu, hinv⟩ := h.exists_runEdges ps
  exact Option.some.inj (hu.symm.trans ht) ▸ hinv

/-- The ports of an edge with a strobe at which the host asks nothing. -/
def strobeEdge : Inputs := { rst := false, req := false, din := 0#8, cke := true }

/-- The ports of an edge with an INIT. -/
def resetEdge : Inputs := { rst := true, req := false, din := 0#8, cke := false }

/-- The ports of an edge without a strobe at which the host LOADs `c`. -/
def loadEdge (c : Byte) : Inputs := { rst := false, req := true, din := c, cke := false }

/-- Below the compare value the counter never wraps (42_timing_source.md R142). -/
theorem State.Inv.countUp_cnt {s : State} (h : s.Inv) (hcnt : s.cnt ≠ s.cfg.bitPeriodTicks - 1) :
    s.countUp.cnt = s.cnt + 1 := by
  have hlt := h.cnt_lt
  have hfits : s.cfg.bitPeriodTicks - 1 < 2 ^ cntW s.cfg := (cntW_le_iff.mp (Nat.le_refl _)).2
  exact Nat.mod_eq_of_lt (by omega)

/-- A strobe without a request is a TICK at the compare value and a CSTEP below it. -/
theorem step_strobe {s : State} (hten : s.ten = true) :
    step { s with inputs := [strobeEdge] } =
      .next
        { effect (if s.compareMatch then .tick else .cstep)
            ({ s with inputs := [strobeEdge] } : State).passEdge with out := s.outputs false } := by
  have hop : ({ s with inputs := [strobeEdge] } : State).timerOp =
      if s.compareMatch then .tick else .cstep := if_pos hten
  rw [step_of_poll rfl rfl, hop]
  rfl

/-- An armed block reaches its next TICK after as many strobes as CNT still lacks. -/
theorem State.Inv.exists_runEdges_tick {s : State} (h : s.Inv) (hten : s.ten = true) :
    ∃ ps t, runEdges ps s = some t ∧ t.sr = s.sr >>> 1 := by
  have hlt := h.cnt_lt
  induction hn : s.cfg.bitPeriodTicks - 1 - s.cnt generalizing s with
  | zero =>
    have hmatch : s.cnt = s.cfg.bitPeriodTicks - 1 := by omega
    have hstep := step_strobe hten
    rw [(State.compareMatch_eq_true s).mpr hmatch] at hstep
    exact ⟨[strobeEdge], _, runEdges_cons [] hstep, effect_tick_sr _⟩
  | succ n ih =>
    have hbelow : s.cnt ≠ s.cfg.bitPeriodTicks - 1 := by omega
    have hstep := step_strobe hten
    rw [(State.compareMatch_eq_false s).mpr hbelow] at hstep
    have hinv := stepKeepsInvariant _ _ (h.with_inputs [strobeEdge]) hstep
    have hcount : s.cfg.bitPeriodTicks - 1 - s.countUp.cnt = n := by
      rw [h.countUp_cnt hbelow]
      omega
    obtain ⟨ps, t, ht, hsr⟩ := ih hinv hten hinv.cnt_lt hcount
    exact ⟨strobeEdge :: ps, t, (runEdges_cons ps hstep).trans ht, hsr⟩

/-- A drained SR stays 0, and a busy one is shifted by the next TICK, so any number of places can
be reached. -/
theorem State.Inv.exists_runEdges_shift {s : State} (h : s.Inv) (k : Nat) :
    ∃ ps t, runEdges ps s = some t ∧ t.sr = s.sr >>> k := by
  induction k with
  | zero => exact ⟨[], s, rfl, (BitVec.ushiftRight_zero _).symm⟩
  | succ k ih =>
    obtain ⟨ps, t, ht, hsr⟩ := ih
    rw [← shift_shift, ← hsr]
    by_cases hz : t.sr = 0#10
    · exact ⟨ps, t, ht, by rw [hz]; rfl⟩
    · have hinv := h.inv_runEdges ht
      obtain ⟨qs, u, hu, hshift⟩ := hinv.exists_runEdges_tick (hinv.ten_of_busy hz)
      exact ⟨ps ++ qs, u, by rw [runEdges_append, ht]; exact hu, hshift⟩

theorem ReachableSr.exists_runEdges {v : SrWord} (hv : ReachableSr v) {s : State} (h : s.Inv)
    (hz : s.sr = 0#10) : ∃ ps t, runEdges ps s = some t ∧ t.sr = v := by
  obtain rfl | ⟨c, k, -, rfl⟩ := hv
  · exact ⟨[], s, rfl, hz⟩
  · have hstep := (h.with_inputs [loadEdge c]).step_of_load rfl rfl hz
    have hinv := stepKeepsInvariant _ _ (h.with_inputs [loadEdge c]) hstep
    obtain ⟨ps, t, ht, hsr⟩ := hinv.exists_runEdges_shift k
    rw [effect_load_idle (s := ({ s with inputs := [loadEdge c] } : State).passEdge) _ hz] at hsr
    exact ⟨loadEdge c :: ps, t, (runEdges_cons ps hstep).trans ht, hsr⟩

/-! ### The 768 values -/

/-- A nonzero number below 512 can be doubled until it has nine bits. -/
theorem exists_nine_bit_multiple {n : Nat} (hn : n ≠ 0) (hlt : n < 512) :
    ∃ j ≤ 8, 256 ≤ n * 2 ^ j ∧ n * 2 ^ j < 512 := by
  have hlow := Nat.log2_self_le hn
  have hhigh : n < 2 ^ n.log2 * 2 := by rw [← Nat.pow_succ]; exact Nat.lt_log2_self
  have hlog : n.log2 < 9 := (Nat.log2_lt hn).mpr hlt
  have hpow : 2 ^ n.log2 * 2 ^ (8 - n.log2) = 256 := by
    rw [← Nat.pow_add, Nat.add_sub_of_le (Nat.le_of_lt_succ hlog)]
  have hpos := Nat.two_pow_pos (8 - n.log2)
  exact ⟨8 - n.log2, Nat.sub_le _ _, hpow ▸ Nat.mul_le_mul_right _ hlow,
    calc n * 2 ^ (8 - n.log2)
      _ < 2 ^ n.log2 * 2 * 2 ^ (8 - n.log2) := Nat.mul_lt_mul_of_pos_right hhigh hpos
      _ = 512 := by rw [Nat.mul_right_comm, hpow]⟩

/-- A nine-bit number, doubled, is the frame of its lower eight bits. -/
theorem exists_frame_toNat {m : Nat} (hlow : 256 ≤ m) (hhigh : m < 512) :
    ∃ c, (frame c).toNat = m * 2 := by
  refine ⟨BitVec.ofNat 8 (m - 256), ?_⟩
  rw [frame_toNat, BitVec.toNat_ofNat]
  omega

/-- Every value without bit 9 is a frame shifted until its stop bit is the highest bit of the
value. -/
theorem ReachableSr.of_lt {v : SrWord} (hv : v.toNat < 512) : ReachableSr v := by
  by_cases hz : v = 0#10
  · exact .inl hz
  · have hne : v.toNat ≠ 0 := fun h => hz (BitVec.eq_of_toNat_eq h)
    obtain ⟨j, hj, hlow, hhigh⟩ := exists_nine_bit_multiple hne hv
    obtain ⟨c, hc⟩ := exists_frame_toNat hlow hhigh
    refine .inr ⟨c, j + 1, Nat.succ_le_succ hj, BitVec.eq_of_toNat_eq ?_⟩
    rw [BitVec.toNat_ushiftRight, hc, Nat.shiftRight_eq_div_pow, Nat.mul_assoc, ← Nat.pow_succ,
      Nat.mul_div_cancel _ (Nat.two_pow_pos _)]

theorem reachableSr_iff {v : SrWord} : ReachableSr v ↔ v.toNat < 512 ∨ ∃ c, frame c = v := by
  constructor
  · rintro (rfl | ⟨c, k, -, rfl⟩)
    · exact .inl (by decide)
    · cases k with
      | zero => exact .inr ⟨c, (BitVec.ushiftRight_zero _).symm⟩
      | succ k =>
        refine .inl (bitlen_le_iff (w := 9) |>.mp ?_)
        rw [bitlen_frame_shift]
        omega
  · rintro (hlt | ⟨c, rfl⟩)
    · exact .of_lt hlt
    · exact .frame_shift c 0

theorem frame_injective : Function.Injective frame := by
  intro c d h
  have hnat := congrArg BitVec.toNat h
  rw [frame_toNat, frame_toNat] at hnat
  exact BitVec.eq_of_toNat_eq (by omega)

/-- The first `n` words of `w` bits. -/
def wordsBelow (w n : Nat) : List (BitVec w) := (List.range n).map (BitVec.ofNat w)

theorem mem_wordsBelow {w n : Nat} {v : BitVec w} :
    v ∈ wordsBelow w n ↔ v.toNat < n := by
  rw [wordsBelow, List.mem_map]
  constructor
  · rintro ⟨m, hm, rfl⟩
    exact (Nat.mod_le _ _).trans_lt (List.mem_range.mp hm)
  · exact fun hv => ⟨v.toNat, List.mem_range.mpr hv, by rw [BitVec.ofNat_toNat, BitVec.setWidth_eq]⟩

theorem nodup_wordsBelow {w n : Nat} (hn : n ≤ 2 ^ w) : (wordsBelow w n).Nodup := by
  refine List.nodup_range.map_on fun a ha b hb hab => ?_
  have hnat := congrArg BitVec.toNat hab
  rwa [BitVec.toNat_ofNat, BitVec.toNat_ofNat,
    Nat.mod_eq_of_lt ((List.mem_range.mp ha).trans_le hn),
    Nat.mod_eq_of_lt ((List.mem_range.mp hb).trans_le hn)] at hnat

/-- The values SR can have in a run: the 512 without bit 9, and the 256 frames. -/
def reachableSrList : List SrWord := wordsBelow 10 512 ++ (wordsBelow 8 256).map frame

theorem mem_reachableSrList {v : SrWord} : v ∈ reachableSrList ↔ ReachableSr v := by
  have hbyte (c : Byte) : c ∈ wordsBelow 8 256 := mem_wordsBelow.mpr c.isLt
  rw [reachableSrList, List.mem_append, mem_wordsBelow, List.mem_map, reachableSr_iff]
  simp [hbyte]

theorem nodup_reachableSrList : reachableSrList.Nodup := by
  refine (nodup_wordsBelow (by decide)).append
    ((nodup_wordsBelow (by decide)).map frame_injective) fun v hv hframe => ?_
  obtain ⟨c, -, rfl⟩ := List.mem_map.mp hframe
  rw [mem_wordsBelow, frame_toNat] at hv
  omega

theorem length_reachableSrList : reachableSrList.length = 768 := by
  simp [reachableSrList, wordsBelow]

/-! ### Runs that begin with INIT -/

theorem reachableSr_iff_eventRun (s : State) (v : SrWord) (hcfg : s.cfg.wf = true) :
    ReachableSr v ↔ ∃ ops t, eventRun (.init :: ops) s = some t ∧ t.sr = v := by
  constructor
  · intro hv
    obtain ⟨ops, t, ht, hsr⟩ := hv.exists_eventRun (s := effect .init s) rfl
    exact ⟨ops, t, (eventRun_cons ops (eventOp_init s)).trans ht, hsr⟩
  · rintro ⟨ops, t, ht, rfl⟩
    exact (reachableStatesMeetInvariant.1 ops s t hcfg ht).sr_reachable

theorem reachableSr_iff_runEdges (s : State) (v : SrWord) (hcfg : s.cfg.wf = true) :
    ReachableSr v ↔ ∃ p ps t, p.rst = true ∧ runEdges (p :: ps) s = some t ∧ t.sr = v := by
  constructor
  · intro hv
    have hinit : (effect .init ({ s with inputs := [resetEdge] } : State).passEdge).Inv :=
      inv_effect_init hcfg
    obtain ⟨ps, t, ht, hsr⟩ := hv.exists_runEdges hinit rfl
    exact ⟨resetEdge, ps, t, rfl, (runEdges_init ps s rfl).trans ht, hsr⟩
  · rintro ⟨p, ps, t, hp, ht, rfl⟩
    obtain ⟨u, hu, hinv⟩ := reachableStatesMeetInvariant.2 p ps s hcfg hp
    exact Option.some.inj (hu.symm.trans ht) ▸ hinv.sr_reachable

/-- Settles O36: INIT leaves an idle block of the invariant, from which a LOAD and TICKs, or the
edges that make them, reach every value of the form; the invariant allows no other. -/
theorem reachableShiftRegisterValues : Obligations.ReachableShiftRegisterValues := by
  refine ⟨reachableSr_iff_eventRun, reachableSr_iff_runEdges,
    ⟨reachableSrList, nodup_reachableSrList, length_reachableSrList, fun _ => mem_reachableSrList⟩,
    fun s c k hz hk => ?_, fun c k hk => ⟨?_, bitlen_frame_shift c k⟩, frame_shift_nine⟩
  · obtain ⟨t, ht, hsr⟩ := eventRun_load_ticks hz c hk
    exact ⟨t, ht, hsr, by rw [State.remaining, hsr, bitlen_frame_shift]⟩
  · rw [Ne, frame_shift_eq_zero_iff]
    omega

end Sys2Proof.Machine

/-! ## Side effects of the host's operations (20_memory.md R57) -/

namespace Sys2Proof.Machine

/-- POLL is idempotent: a repeated POLL records the answer that already stands. -/
theorem respond_respond (s : State) (a b : Bool) : (s.respond a).respond b = s.respond b := rfl

theorem eventRun_polls (n : Nat) (s : State) :
    eventRun (List.replicate (n + 1) .poll) s = some (s.respond false) := by
  induction n generalizing s with
  | zero => rfl
  | succ n ih => rw [List.replicate_succ, eventRun_cons _ (eventOp_poll s), ih, respond_respond]

/-- Settles O12: any positive number of POLLs is one answer, a frame is never 0 and so rejects the
LOAD after it, and TICK's write set is that of `endFrame_shiftOut_eq`. -/
theorem sideEffectsOfEachOperation : Obligations.SideEffectsOfEachOperation := by
  refine ⟨fun n s => ?polls, fun s c hbusy => ?rejected, fun s c hz => ?accepted, fun s => ?tick⟩
  case polls =>
    cases n with
    | zero => exact ⟨s, rfl, rfl, fun h => absurd h (Nat.lt_irrefl 0)⟩
    | succ n => exact ⟨_, eventRun_polls n s, rfl, fun _ => rfl⟩
  case rejected => exact ⟨_, exec_load_busy s c hbusy, rfl⟩
  case accepted =>
    exact ⟨_, _, exec_load_idle s c hz, rfl, exec_load_busy _ c (frame_ne_zero c), rfl, rfl⟩
  case tick => exact ⟨_, exec_tick s, by rw [State.endFrame_shiftOut_eq]⟩

end Sys2Proof.Machine

/-! ## No TICK in an idle block until a LOAD (20_memory.md R59 (b)) -/

namespace Sys2Proof.Machine

/-- Only a LOAD arms, so any other operation that a disarmed block performs leaves it disarmed. -/
theorem eventOp_of_disarmed {i : Instr} {s t : State} (hten : s.ten = false)
    (hload : ∀ c, i ≠ .load c) (ht : eventOp i s = some t) : i ≠ .tick ∧ t.ten = false := by
  obtain ⟨henabled, rfl⟩ := eventOp_eq_some ht
  have htick : i ≠ .tick := by
    rintro rfl
    exact absurd (hten.symm.trans henabled) nofun
  refine ⟨htick, ?_⟩
  by_contra hne
  obtain rfl | ⟨hi, -⟩ | ⟨c, hi, -⟩ := writer_of_ten fun h => hne (h.trans hten)
  · exact hne rfl
  · exact htick hi
  · exact hload c hi

theorem tick_notMem_of_disarmed {ops : List Instr} {s u : State} (hten : s.ten = false)
    (hload : ∀ i ∈ ops, ∀ c, i ≠ .load c) (hu : eventRun ops s = some u) : .tick ∉ ops := by
  induction ops generalizing s with
  | nil => exact List.not_mem_nil
  | cons i is ih =>
    obtain ⟨hi, his⟩ := List.forall_mem_cons.mp hload
    simp only [eventRun] at hu
    split at hu
    · next t ht =>
      obtain ⟨htick, htten⟩ := eventOp_of_disarmed hten hi ht
      exact List.not_mem_cons_of_ne_of_not_mem htick.symm (ih htten his hu)
    · exact absurd hu nofun

/-- Settles O42: the answer BUSY = 0 says that SR is 0, and under the invariant the block is then
disarmed. -/
theorem noTickAfterAnIdlePoll : Obligations.NoTickAfterAnIdlePoll := by
  intro s t u ops hs hpoll hbusy hload hu
  obtain ⟨-, rfl⟩ := eventOp_eq_some hpoll
  have hidle : s.sr = 0#10 := (State.busy_eq_false s).mp hbusy
  have hten : s.ten = false := hs.idle_iff.mp hidle
  exact tick_notMem_of_disarmed (s := s.respond false) hten hload hu

end Sys2Proof.Machine

/-! ## A LOAD beside the draining TICK (20_memory.md R60) -/

namespace Sys2Proof.Machine

/-- A rejected LOAD leaves the edge to the timer's operation. -/
theorem step_of_load_busy {s : State} (hr : s.ports.rst = false) (hreq : s.ports.req = true)
    (hbusy : s.sr ≠ 0#10) :
    step s = .next { effect s.timerOp s.passEdge with out := s.outputs false } := by
  rw [step_of_not_rst hr, hostOp_of_req hreq, effect_load_busy (s := s.passEdge) _ hbusy,
    commit_of_not_acc _ _ rfl]
  rfl

theorem timerOp_eq_tick {s : State} (hten : s.ten = true) (hcke : s.ports.cke = true)
    (hcnt : s.cnt = s.cfg.bitPeriodTicks - 1) : s.timerOp = .tick := by
  rw [State.timerOp, if_pos hten, if_pos hcke, if_pos ((State.compareMatch_eq_true s).mpr hcnt)]

/-- The edge at CNT's compare value with the stop bit alone left in SR: the TICK drains SR, and the
LOAD beside it is answered from the old SR. -/
theorem State.Inv.step_of_load_draining {s : State} (h : s.Inv) (hr : s.ports.rst = false)
    (hreq : s.ports.req = true) (hcke : s.ports.cke = true) (hsr : s.sr = 1#10)
    (hcnt : s.cnt = s.cfg.bitPeriodTicks - 1) :
    ∃ t, step s = .next t ∧ t.sr = 0#10 ∧ t.inputs = s.inputs.tail ∧
      t.out = { acc := false, busy := true, txd := s.txd } := by
  have hbusy : s.sr ≠ 0#10 := by rw [hsr]; decide
  have hstep := step_of_load_busy hr hreq hbusy
  rw [timerOp_eq_tick (h.ten_of_busy hbusy) hcke hcnt] at hstep
  obtain ⟨-, hinputs, -⟩ := effect_frame .tick s.passEdge
  refine ⟨_, hstep, ?_, hinputs, ?_⟩
  · rw [effect_tick_sr, State.passEdge_sr, hsr]; rfl
  · rw [State.outputs, (State.busy_eq_true s).mpr hbusy]

/-- The edge of an accepted LOAD: an idle block has its reset values, and LOAD writes SR and TEN. -/
theorem State.Inv.step_of_load_idle {s : State} (h : s.Inv) (hr : s.ports.rst = false)
    (hreq : s.ports.req = true) (hz : s.sr = 0#10) :
    ∃ t, step s = .next t ∧ t.out.acc = true ∧
      t.elements = { sr := frame s.ports.din, txd := true, ten := true, cnt := 0 } := by
  have hstep := h.step_of_load hr hreq hz
  have hcnt : s.cnt = 0 := h.cnt_idle (h.idle_iff.mp hz)
  rw [effect_load_idle (s := s.passEdge) _ hz, State.loadFrame_eq] at hstep
  exact ⟨_, hstep, rfl, by simp [State.elements, h.idle_high hz, hcnt]⟩

/-- Settles O32: the draining edge rejects its LOAD and leaves SR = 0 under the invariant, so the
next edge is that of an accepted LOAD. -/
theorem loadInTheDrainingCycleIsRejected : Obligations.LoadInTheDrainingCycleIsRejected := by
  intro s p q ps hs hsr hcnt hinputs hprst hpreq hpcke hqrst hqreq
  rw [← s.ports_of_cons p _ hinputs] at hprst hpreq hpcke
  obtain ⟨t, hstep, hdrained, hrest, hout⟩ :=
    hs.step_of_load_draining hprst hpreq hpcke hsr hcnt
  have hinv : t.Inv := stepKeepsInvariant s t hs hstep
  have hnext : t.ports = q := t.ports_of_cons q ps (by rw [hrest, hinputs, List.tail_cons])
  rw [← hnext] at hqrst hqreq ⊢
  obtain ⟨u, hload, hacc, helements⟩ := hinv.step_of_load_idle hqrst hqreq hdrained
  exact ⟨t, u, hstep, by rw [hout], by rw [hout], hinv.elements_of_idle hdrained, hload, hacc,
    helements⟩

end Sys2Proof.Machine

/-! ## The two decoders and the rows of the operation map (30_encoding.md R80, R81) -/

namespace Sys2Proof

/-- The row of 30_encoding.md R80 an operation has. -/
def Instr.row : Instr → Row
  | .init => { mnemonic := "INIT", side := .host, pattern := 0x200, mask := 0x200 }
  | .load _ => { mnemonic := "LOAD", side := .host, pattern := 0x100, mask := 0x300 }
  | .poll => { mnemonic := "POLL", side := .host, pattern := 0x000, mask := 0x300 }
  | .tick => { mnemonic := "TICK", side := .timer, pattern := 0b111, mask := 0b111 }
  | .cstep => { mnemonic := "CSTEP", side := .timer, pattern := 0b110, mask := 0b111 }
  | .hold => { mnemonic := "HOLD", side := .timer, pattern := 0b100, mask := 0b110 }
  | .idle => { mnemonic := "IDLE", side := .timer, pattern := 0b000, mask := 0b100 }

@[simp] theorem Instr.row_mnemonic (i : Instr) : i.row.mnemonic = i.mnemonic := by
  cases i <;> rfl

theorem decodeCW_side (w : CmdWord) : (decodeCW w).side = .host := by
  unfold decodeCW
  split
  · rfl
  · split <;> rfl

theorem decodeEV_side (w : EvWord) : (decodeEV w).side = .timer := by
  revert w; decide

theorem decode_side (k : Code) : (decode k).side = k.side := by
  cases k with
  | cw w => exact decodeCW_side w
  | ev w => exact decodeEV_side w

/-- The mask 0x300 reads bits 9 and 8. -/
theorem toNat_and_0x300 (w : CmdWord) :
    w.toNat &&& 0x300 = (w.getLsbD 9).toNat * 2 ^ 9 ||| (w.getLsbD 8).toNat * 2 ^ 8 := by
  rw [show 0x300 = 2 ^ 9 ||| 2 ^ 8 from rfl, Nat.and_or_distrib_left, Nat.and_two_pow,
    Nat.and_two_pow, BitVec.testBit_toNat, BitVec.testBit_toNat]

/-- The mask 0x200 reads bit 9. -/
theorem toNat_and_0x200 (w : CmdWord) : w.toNat &&& 0x200 = (w.getLsbD 9).toNat * 2 ^ 9 := by
  rw [show 0x200 = 2 ^ 9 from rfl, Nat.and_two_pow, BitVec.testBit_toNat]

/-- The host rows look at bits 9 and 8 alone, and of their values each is one row's. -/
theorem matching_rows_cw (w : CmdWord) :
    rows.filter (fun r => r.matchesCode (.cw w)) = [(decodeCW w).row] := by
  simp only [rows, List.filter, Row.matchesCode, Code.toNat, toNat_and_0x300, toNat_and_0x200,
    decodeCW]
  cases w.getLsbD 9 <;> cases w.getLsbD 8 <;> rfl

theorem matching_rows_ev (w : EvWord) :
    rows.filter (fun r => r.matchesCode (.ev w)) = [(decodeEV w).row] := by
  revert w; decide

theorem matching_rows (k : Code) :
    rows.filter (fun r => r.matchesCode k) = [(decode k).row] := by
  cases k with
  | cw w => exact matching_rows_cw w
  | ev w => exact matching_rows_ev w

theorem row_decode_mem_and_matches (k : Code) :
    (decode k).row ∈ rows ∧ (decode k).row.matchesCode k = true := by
  have hmem : (decode k).row ∈ rows.filter (fun r => r.matchesCode k) := by
    rw [matching_rows]
    exact List.mem_singleton_self _
  exact List.mem_filter.mp hmem

/-- Settles O21: of the seven rows a word matches the row of its operation and no other. -/
theorem decodersFollowTheTable : Obligations.DecodersFollowTheTable := by
  intro k
  rw [matching_rows, List.map_singleton, Instr.row_mnemonic]
  exact ⟨rfl, decode_side k⟩

end Sys2Proof

/-! ## Decode and encode, as words and as bytes (30_encoding.md R80, R84) -/

namespace Sys2Proof

/-- A command word is its bits 9 and 8 before its character field. -/
theorem opBits_append_character (w : CmdWord) :
    w.extractLsb' 8 2 ++ w.extractLsb' 0 8 = w :=
  BitVec.extractLsb'_append_extractLsb'

theorem decodeCW_append (op : BitVec 2) (c : Byte) :
    decodeCW (op ++ c) =
      if op.getLsbD 1 then .init else if op.getLsbD 0 then .load c else .poll := by
  rw [decodeCW, BitVec.extractLsb'_append_eq_right, BitVec.getLsbD_append, BitVec.getLsbD_append]
  rfl

/-- LOAD is the one operation whose word has no ignored bit. -/
theorem decodeCW_eq_load_iff {w : CmdWord} {c : Byte} : decodeCW w = .load c ↔ w = 0b01#2 ++ c := by
  constructor
  · rw [← opBits_append_character w]
    generalize w.extractLsb' 8 2 = op
    rw [decodeCW_append]
    intro h
    split at h
    case isTrue => exact absurd h nofun
    case isFalse hinit =>
      split at h
      case isTrue hload =>
        obtain rfl := Instr.load.inj h
        have hop : op = 0b01#2 := by revert op; decide
        rw [hop]
      case isFalse => exact absurd h nofun
  · rintro rfl
    rw [decodeCW_append]
    rfl

theorem decode_encode (i : Instr) : decode (encode i) = i := by
  cases i with
  | load c => exact decodeCW_eq_load_iff.mpr rfl
  | init | poll | tick | cstep | hold | idle => rfl

theorem encode_of_decode_eq_load {k : Code} {c : Byte} (h : decode k = .load c) :
    encode (.load c) = k := by
  cases k with
  | cw w => rw [decodeCW_eq_load_iff.mp h]; rfl
  | ev w =>
    have hside : Side.host = Side.timer := (congrArg Instr.side h).symm.trans (decodeEV_side w)
    exact absurd hside nofun

/-! ### The byte layout -/

theorem decodeBytes_bytes (k : Code) : decodeBytes k.bytes = .instr (decode k) := by
  cases k with
  | cw w =>
    have hhi : ((w.extractLsb' 8 2).setWidth 8).toNat < 4 := by
      rw [BitVec.toNat_setWidth_of_le (by decide)]
      exact (w.extractLsb' 8 2).isLt
    rw [Code.bytes, decodeBytes, if_pos hhi, BitVec.setWidth_setWidth_of_le _ (by decide),
      BitVec.setWidth_eq, opBits_append_character, decode]
  | ev w =>
    have hb : (w.setWidth 8).toNat < 8 := by
      rw [BitVec.toNat_setWidth_of_le (by decide)]
      exact w.isLt
    rw [Code.bytes, decodeBytes, if_pos hb, BitVec.setWidth_setWidth_of_le _ (by decide),
      BitVec.setWidth_eq, decode]

/-- Nothing is lost between a byte and its low bits if the others are 0. -/
theorem setWidth_setWidth_of_toNat_lt {b : Byte} {n : Nat} (hb : b.toNat < 2 ^ n) :
    (b.setWidth n).setWidth 8 = b := by
  apply BitVec.eq_of_toNat_eq
  rw [BitVec.toNat_setWidth, BitVec.toNat_setWidth, Nat.mod_eq_of_lt hb, Nat.mod_eq_of_lt b.isLt]

theorem exists_code_of_decodeBytes {bs : List Byte} {i : Instr} (h : decodeBytes bs = .instr i) :
    ∃ k : Code, k.bytes = bs ∧ decode k = i := by
  unfold decodeBytes at h
  split at h
  case h_1 b =>
    split at h
    case isTrue hb =>
      exact ⟨.ev (b.setWidth 3), congrArg (fun x => [x]) (setWidth_setWidth_of_toNat_lt hb),
        Decoded.instr.inj h⟩
    case isFalse => exact absurd h nofun
  case h_2 lo hi =>
    split at h
    case isTrue hhi =>
      refine ⟨.cw (hi.setWidth 2 ++ lo), ?_, Decoded.instr.inj h⟩
      rw [Code.bytes, BitVec.extractLsb'_append_eq_right, BitVec.extractLsb'_append_eq_left,
        setWidth_setWidth_of_toNat_lt hhi]
    case isFalse => exact absurd h nofun
  case h_3 => exact absurd h nofun

theorem decodeBytes_eq_instr_iff {bs : List Byte} {i : Instr} :
    decodeBytes bs = .instr i ↔ ∃ k : Code, k.bytes = bs ∧ decode k = i := by
  constructor
  · exact exists_code_of_decodeBytes
  · rintro ⟨k, rfl, rfl⟩
    exact decodeBytes_bytes k

/-- Settles O22: encoding is undone by decoding, as a word and through its bytes; a word and the
encoding of its operation match the row of that operation. -/
theorem decodeEncodeAgree : Obligations.DecodeEncodeAgree := by
  refine ⟨fun i => ⟨decode_encode i, ?bytes⟩, fun k => ?row, fun _ _ => encode_of_decode_eq_load,
    fun _ _ => decodeBytes_eq_instr_iff⟩
  case bytes => rw [decodeBytes_bytes, decode_encode]
  case row =>
    obtain ⟨hmem, hword⟩ := row_decode_mem_and_matches k
    obtain ⟨-, hencoded⟩ := row_decode_mem_and_matches (encode (decode k))
    rw [decode_encode] at hencoded
    exact ⟨_, hmem, hword, hencoded⟩

end Sys2Proof

/-! ## The frame word, field by field (30_encoding.md R71, R72) -/

namespace Sys2Proof.Machine

theorem frame_eq_append (c : Byte) : frame c = 1#1 ++ c ++ 0#1 := by
  apply BitVec.eq_of_toNat_eq
  rw [frame_toNat, BitVec.toNat_append, BitVec.toNat_append,
    ← Nat.shiftLeft_add_eq_or_of_lt c.isLt, Nat.shiftLeft_eq _ 1, Nat.add_mul, Nat.mul_comm 2]
  exact (Nat.or_zero _).symm

theorem frame_start (c : Byte) : (frame c).getLsbD 0 = false := by
  rw [frame_eq_append, BitVec.getLsbD_append]
  rfl

theorem frame_stop (c : Byte) : (frame c).getLsbD 9 = true := by
  rw [frame_eq_append, BitVec.getLsbD_append, BitVec.getLsbD_append]
  rfl

theorem frame_character (c : Byte) {i : Nat} (hi : i < 8) :
    (frame c).getLsbD (i + 1) = c.getLsbD i := by
  rw [frame_eq_append, BitVec.getLsbD_append, BitVec.getLsbD_append, if_neg (by omega),
    Nat.add_sub_cancel, if_pos hi]

/-- Settles O18: the fields are read off the concatenation, the integer form off `frame_toNat`. -/
theorem frameWordLayout : Obligations.FrameWordLayout :=
  ⟨fun _ => rfl, frame_eq_append, frame_toNat,
    fun c => ⟨frame_start c, frame_stop c, fun _ => frame_character c⟩,
    fun c k => BitVec.getLsbD_ushiftRight (frame c) k, rfl, rfl, rfl⟩

end Sys2Proof.Machine

/-! ## The wire frame and its inverse (30_encoding.md R73, R74) -/

namespace Sys2Proof.Machine

theorem wireFrame_eq (c : Byte) :
    wireFrame c = false :: (List.range 8).map (fun i => c.getLsbD i) ++ [true] := by
  have hcharacter : (List.range 8).map (fun i => (frame c).getLsbD (i + 1)) =
      (List.range 8).map (fun i => c.getLsbD i) :=
    List.map_congr_left fun i hi => frame_character c (List.mem_range.mp hi)
  rw [← hcharacter, ← frame_start c, ← frame_stop c]
  rfl

/-- The character of eight levels, the first of them its bit 0. -/
def characterOf (b0 b1 b2 b3 b4 b5 b6 b7 : Bool) : Byte :=
  BitVec.ofBool b7 ++ BitVec.ofBool b6 ++ BitVec.ofBool b5 ++ BitVec.ofBool b4 ++
    BitVec.ofBool b3 ++ BitVec.ofBool b2 ++ BitVec.ofBool b1 ++ BitVec.ofBool b0

theorem bits_characterOf (b0 b1 b2 b3 b4 b5 b6 b7 : Bool) :
    (List.range 8).map (fun i => (characterOf b0 b1 b2 b3 b4 b5 b6 b7).getLsbD i) =
      [b0, b1, b2, b3, b4, b5, b6, b7] := by
  simp only [characterOf, BitVec.append_ofBool, List.range_succ, List.range_zero, List.map_append,
    List.map_cons, BitVec.getLsbD_concat_zero, BitVec.getLsbD_concat_succ, BitVec.getLsbD_ofBool]
  rfl

theorem eq_of_bits_eq {c d : Byte} (h : (List.range 8).map (fun i => c.getLsbD i) =
    (List.range 8).map (fun i => d.getLsbD i)) : c = d :=
  BitVec.eq_of_getLsbD_eq fun i hi => List.map_inj_left.mp h i (List.mem_range.mpr hi)

/-- Only ten levels from a start bit to a stop bit decode. -/
theorem wireDecode_eq_some_iff {ws : List Bool} {c : Byte} :
    wireDecode ws = some c ↔ ∃ b0 b1 b2 b3 b4 b5 b6 b7,
      ws = [false, b0, b1, b2, b3, b4, b5, b6, b7, true] ∧
        characterOf b0 b1 b2 b3 b4 b5 b6 b7 = c := by
  constructor
  · intro h
    unfold wireDecode at h
    split at h
    case h_1 w0 w1 w2 w3 w4 w5 w6 w7 w8 w9 =>
      split at h
      case isTrue hends =>
        rw [Bool.and_eq_true, Bool.not_eq_true'] at hends
        obtain ⟨rfl, rfl⟩ := hends
        exact ⟨w1, w2, w3, w4, w5, w6, w7, w8, rfl, Option.some.inj h⟩
      case isFalse => exact absurd h nofun
    case h_2 => exact absurd h nofun
  · rintro ⟨b0, b1, b2, b3, b4, b5, b6, b7, rfl, rfl⟩
    rfl

theorem wireFrame_characterOf (b0 b1 b2 b3 b4 b5 b6 b7 : Bool) :
    wireFrame (characterOf b0 b1 b2 b3 b4 b5 b6 b7) =
      [false, b0, b1, b2, b3, b4, b5, b6, b7, true] := by
  rw [wireFrame_eq, bits_characterOf]
  rfl

theorem wireDecode_wireFrame (c : Byte) : wireDecode (wireFrame c) = some c :=
  wireDecode_eq_some_iff.mpr ⟨_, _, _, _, _, _, _, _, wireFrame_eq c,
    eq_of_bits_eq (bits_characterOf ..)⟩

theorem eq_wireFrame_of_wireDecode {ws : List Bool} {c : Byte} (h : wireDecode ws = some c) :
    ws = wireFrame c := by
  obtain ⟨b0, b1, b2, b3, b4, b5, b6, b7, rfl, rfl⟩ := wireDecode_eq_some_iff.mp h
  exact (wireFrame_characterOf ..).symm

theorem wireDecode_isSome_iff {ws : List Bool} :
    (wireDecode ws).isSome = true ↔
      ws.length = 10 ∧ ws[0]? = some false ∧ ws[9]? = some true := by
  constructor
  · intro h
    obtain ⟨c, hc⟩ := Option.isSome_iff_exists.mp h
    rw [eq_wireFrame_of_wireDecode hc, wireFrame_eq]
    exact ⟨rfl, rfl, rfl⟩
  · rintro ⟨hlen, hstart, hstop⟩
    match ws, hlen with
    | [w0, w1, w2, w3, w4, w5, w6, w7, w8, w9], _ =>
      obtain rfl : w0 = false := Option.some.inj hstart
      obtain rfl : w9 = true := Option.some.inj hstop
      rfl

/-- Settles O19: the levels between the start and the stop bit are the bits of the character. -/
theorem wireFrameDecodes : Obligations.WireFrameDecodes :=
  ⟨wireDecode_wireFrame, fun _ _ => eq_wireFrame_of_wireDecode, fun _ => wireDecode_isSome_iff⟩

end Sys2Proof.Machine

/-! ## What an edge does not look at (30_encoding.md R84) -/

namespace Sys2Proof.Machine

/-- Without a request DIN is not read. -/
theorem hostOp_congr {s t : State} (hreq : s.ports.req = t.ports.req)
    (hdin : s.ports.req = true → s.ports.din = t.ports.din) : s.hostOp = t.hostOp := by
  cases hs : s.ports.req with
  | false => rw [hostOp_of_not_req hs, hostOp_of_not_req (hreq ▸ hs)]
  | true => rw [hostOp_of_req hs, hostOp_of_req (hreq ▸ hs), hdin hs]

/-- In a disarmed block the strobe is not read. -/
theorem timerOp_congr {s t : State} (hten : s.ten = t.ten)
    (hmatch : s.compareMatch = t.compareMatch)
    (hcke : s.ten = true → s.ports.cke = t.ports.cke) : s.timerOp = t.timerOp := by
  cases hs : s.ten with
  | false => rw [timerOp_of_disarmed hs, timerOp_of_disarmed (hten ▸ hs)]
  | true => rw [State.timerOp, State.timerOp, ← hten, ← hmatch, hcke hs]

/-- What an edge does is settled by RST, by the state its operations run from and, unless it is an
INIT, by what they are. -/
theorem step_congr {s t : State} (hpass : s.passEdge = t.passEdge)
    (hrst : s.ports.rst = t.ports.rst)
    (hops : s.ports.rst = false → s.hostOp = t.hostOp ∧ s.timerOp = t.timerOp) :
    step s = step t := by
  cases hs : s.ports.rst with
  | true => rw [step_of_rst hs, step_of_rst (hrst ▸ hs), hpass]
  | false =>
    obtain ⟨hhost, htimer⟩ := hops hs
    rw [step_of_not_rst hs, step_of_not_rst (hrst ▸ hs), hpass, hhost, htimer]

/-- Settles O23: the ports an edge looks at settle its operations, and the edge drops the rest. -/
theorem ignoredBitsHaveNoEffect : Obligations.IgnoredBitsHaveNoEffect := by
  intro s p q ps hrst hrest
  refine step_congr rfl hrst fun hp => ?_
  obtain ⟨hreq, hdin, hcke⟩ := hrest hp
  exact ⟨hostOp_congr hreq hdin, timerOp_congr rfl rfl hcke⟩

end Sys2Proof.Machine

/-! ## The operation of a word placed for the coming edge (30_encoding.md R80, R81) -/

namespace Sys2Proof

theorem decodeTableWord_eq_some {nbits w : Nat} {i : Instr} (h : decodeTableWord nbits w = some i) :
    decodeBytes (layOut nbits w) = .instr i := by
  unfold decodeTableWord at h
  split at h
  case isTrue =>
    split at h
    case h_1 j hj => rw [hj, Option.some.inj h]
    case h_2 => exact absurd h nofun
  case isFalse => exact absurd h nofun

/-- Two bytes hold the low ten bits of a number as its second and its first. -/
theorem ofNat_append_ofNat (w : Nat) :
    (BitVec.ofNat 8 (w / 256)).setWidth 2 ++ BitVec.ofNat 8 w = BitVec.ofNat 10 w := by
  apply BitVec.eq_of_toNat_eq
  rw [BitVec.toNat_append, ← Nat.shiftLeft_add_eq_or_of_lt (BitVec.isLt _), Nat.shiftLeft_eq]
  simp only [BitVec.toNat_setWidth, BitVec.toNat_ofNat]
  omega

/-- A number that decodes is an event vector in one byte or a command word in two. -/
theorem decodeTableWord_cases {nbits w : Nat} {i : Instr} (h : decodeTableWord nbits w = some i) :
    (nbits ≤ 8 ∧ decodeEV (BitVec.ofNat 3 w) = i) ∨
      (¬ nbits ≤ 8 ∧ decodeCW (BitVec.ofNat 10 w) = i) := by
  have hbytes := decodeTableWord_eq_some h
  unfold layOut at hbytes
  split at hbytes
  case isTrue hev =>
    refine .inl ⟨hev, ?_⟩
    rw [decodeBytes] at hbytes
    split at hbytes
    case isTrue =>
      rw [BitVec.setWidth_ofNat_of_le (by decide)] at hbytes
      exact Decoded.instr.inj hbytes
    case isFalse => exact absurd hbytes nofun
  case isFalse hcw =>
    refine .inr ⟨hcw, ?_⟩
    split at hbytes
    case isTrue =>
      rw [decodeBytes] at hbytes
      split at hbytes
      case isTrue =>
        rw [ofNat_append_ofNat] at hbytes
        exact Decoded.instr.inj hbytes
      case isFalse => exact absurd hbytes nofun
    case isFalse => exact absurd hbytes nofun

end Sys2Proof

namespace Sys2Proof.Machine

/-- Beside a timer operation that writes nothing, the edge does what the host's operation does. -/
theorem commit_effect_of_host {i : Instr} (s : State) (hi : i.side = .host) (hinit : i ≠ .init) :
    commit s (effect i s) = effect i s := by
  cases i with
  | load c =>
    by_cases hz : s.sr = 0#10
    · exact commit_idle_load c hz
    · rw [effect_load_busy c hz, commit_of_not_acc _ _ rfl]
      rfl
  | poll => rfl
  | init => exact absurd rfl hinit
  | tick | cstep | hold | idle => exact absurd hi nofun

/-- Without a strobe the timer's operation is HOLD or IDLE. -/
theorem effect_timerOp_of_no_strobe {s : State} (hcke : s.ports.cke = false) (t : State) :
    effect s.timerOp t = t := by
  rw [State.timerOp, hcke]
  cases s.ten <;> rfl

theorem hostOp_side (s : State) : s.hostOp.side = .host := by
  unfold State.hostOp
  split <;> rfl

theorem hostOp_ne_init (s : State) : s.hostOp ≠ .init := by
  unfold State.hostOp
  split <;> nofun

theorem step_presentCommand (s : State) (w : CmdWord) :
    step (s.presentCommand w) = exec (decodeCW w) { s with edges := s.edges + 1 } := by
  have hpass : (s.presentCommand w).passEdge = { s with edges := s.edges + 1 } := rfl
  rw [exec_eq_effect, decodeCW]
  cases hrst : w.getLsbD 9 with
  | true => rw [step_of_rst (s := s.presentCommand w) hrst, hpass, if_pos rfl]
  | false =>
    rw [step_of_not_rst (s := s.presentCommand w) hrst, effect_timerOp_of_no_strobe rfl, hpass,
      commit_effect_of_host _ (hostOp_side _) (hostOp_ne_init _)]
    rfl

theorem timerOp_presentEvent (s : State) (w : EvWord) :
    (s.presentEvent w).timerOp = decodeEV w := by
  rw [State.timerOp, ← decodeEV_eventVector, State.eventVector_presentEvent]

theorem step_presentEvent (s : State) (w : EvWord) :
    step (s.presentEvent w) =
      .next { effect (decodeEV w) (s.presentEvent w).passEdge with out := s.outputs false } := by
  rw [step_of_poll rfl rfl, timerOp_presentEvent]
  rfl

/-- Settles O27: a number that decodes is a word of one of the two formats and is placed as one. -/
theorem fetchWordRunsDecodedOperation : Obligations.FetchWordRunsDecodedOperation := by
  intro s nbits w i h
  obtain ⟨hev, rfl⟩ | ⟨hcw, rfl⟩ := decodeTableWord_cases h
  · rw [State.withFetchWord, State.present, if_pos hev, decodeEV_side]
    exact ⟨nofun, fun _ => ⟨_, exec_eq_effect _ _, step_presentEvent s _⟩⟩
  · rw [State.withFetchWord, State.present, if_neg hcw, decodeCW_side]
    exact ⟨fun _ => step_presentCommand s _, nofun⟩

end Sys2Proof.Machine

/-! ## Words of 95_test_vectors.md section 2.6 -/

namespace Sys2Proof

/-- Settles O20: fourteen closed words, decoded. -/
theorem specWordsDecode : Obligations.SpecWordsDecode := by
  unfold Obligations.SpecWordsDecode
  decide

end Sys2Proof

/-! ## LOAD and POLL, the operations of the frame loader (40_frame_loader.md sections 1 and 2) -/

namespace Sys2Proof.Machine

/-- Settles O5: POLL is the recording of an answer. -/
theorem pollAnswersBusy : Obligations.PollAnswersBusy := exec_poll

/-- Settles O2: the two cases of LOAD are `exec_load_idle` and `exec_load_busy`; the flag BUSY of
the answer is the test that told them apart. -/
theorem loadIsAtomicTestAndSet : Obligations.LoadIsAtomicTestAndSet := by
  refine ⟨fun c => decodeCW_eq_load_iff.mpr rfl, fun s c hz => ?accepted, fun s c hbusy => ?rejected,
    frame_ne_zero, fun cfg => ⟨_, exec_load_idle _ _ rfl, rfl, rfl⟩⟩
  case accepted =>
    rw [exec_load_idle s c hz, State.respond_eq, (State.busy_eq_false s).mpr hz]
    rfl
  case rejected =>
    rw [exec_load_busy s c hbusy, State.respond_eq, (State.busy_eq_true s).mpr hbusy]

/-- Settles O3: the acceptance test reads SR alone, so it does not matter that a TICK left SR = 0. -/
theorem acceptWhenIdle : Obligations.AcceptWhenIdle :=
  have haccept (s : State) (c : Byte) (hz : s.sr = 0#10) :
      ∃ t, exec (.load c) s = .next t ∧ t.out.acc = true ∧ t.sr = frame c :=
    ⟨_, exec_load_idle s c hz, rfl, rfl⟩
  ⟨haccept, fun _ t c _ hz => haccept t c hz⟩

/-! ### The recorded answer is read by no operation (log 5) -/

theorem effect_with_out_of_host {i : Instr} (hi : i.side = .host) (s : State) (r : Response) :
    effect i { s with out := r } = effect i s := by
  cases i with
  | init | poll | load c => rfl
  | tick | cstep | hold | idle => exact absurd hi nofun

theorem effect_tick_with_out (s : State) (r : Response) :
    effect .tick { s with out := r } = { effect .tick s with out := r } := by
  simp only [effect, State.endFrame_shiftOut_eq]

theorem eventOp_of_host {i : Instr} (hi : i.side = .host) (s : State) :
    eventOp i s = some (effect i s) := by
  cases i with
  | init | poll => rfl
  | load c => rw [eventOp, exec_eq_effect, nextOf]
  | tick | cstep | hold | idle => exact absurd hi nofun

/-- A host operation records its own answer over the old one, and a TICK carries the old one on. -/
theorem eventRun_with_out (ops : List Instr) (s : State) (r : Response) :
    (eventRun ops { s with out := r }).map State.elements =
      (eventRun ops s).map State.elements := by
  induction ops generalizing s with
  | nil => rfl
  | cons i is ih =>
    cases i with
    | init | poll | load c =>
      rw [eventRun_cons is (eventOp_of_host rfl _), eventRun_cons is (eventOp_of_host rfl s),
        effect_with_out_of_host rfl]
    | tick =>
      by_cases hten : s.ten = true
      · rw [eventRun_cons is (eventOp_tick_armed s hten),
          eventRun_cons is (eventOp_tick_armed { s with out := r } hten)]
        have htick := congrArg (fun u => (eventRun is u).map State.elements)
          (effect_tick_with_out s r)
        exact htick.trans (ih (effect .tick s))
      · rw [Bool.not_eq_true] at hten
        rw [eventRun, eventRun, eventOp_tick_disarmed s hten,
          eventOp_tick_disarmed { s with out := r } hten]
    | cstep | hold | idle => rfl

/-- Settles O4: a rejected LOAD writes the recorded answer and nothing else. -/
theorem rejectWhenBusy : Obligations.RejectWhenBusy := by
  intro s c hbusy
  refine ⟨⟨_, exec_load_busy s c hbusy, rfl, rfl⟩, fun ops => ?_⟩
  rw [eventRun_cons ops (eventOp_load_busy s c hbusy)]
  exact eventRun_with_out ops s _

end Sys2Proof.Machine

/-! ## The levels SR still has to send (10_state.md R26) -/

namespace Sys2Proof.Machine

theorem pendingBits_zero : pendingBits 0#10 = [] := rfl

theorem pendingBits_frame (c : Byte) : pendingBits (frame c) = wireFrame c := by
  rw [pendingBits, bitlen_frame, wireFrame]

/-- The level TICK writes is the first of those still to send, and the shift leaves the others. -/
theorem pendingBits_of_busy {v : SrWord} (hv : v ≠ 0#10) :
    pendingBits v = v.getLsbD 0 :: pendingBits (v >>> 1) := by
  obtain ⟨n, hn⟩ := Nat.exists_eq_succ_of_ne_zero (bitlen_toNat_eq_zero_iff.not.mpr hv)
  rw [pendingBits, pendingBits, bitlen_ushiftRight, hn, Nat.succ_sub_one, List.range_succ_eq_map,
    List.map_cons, List.map_map]
  simp [Function.comp_def, Nat.add_comm]

theorem remaining_le (s : State) : s.remaining ≤ 10 := bitlen_le_iff.mpr s.sr.isLt

theorem remaining_eq_zero_iff {s : State} : s.remaining = 0 ↔ s.sr = 0#10 :=
  bitlen_toNat_eq_zero_iff

theorem remaining_effect_tick (s : State) : (effect .tick s).remaining = s.remaining - 1 := by
  rw [State.remaining, effect_tick_sr, bitlen_ushiftRight, State.remaining]

theorem effect_tick_txd (s : State) : (effect .tick s).txd = s.sr.getLsbD 0 := by
  rw [effect, State.endFrame_shiftOut_eq]

end Sys2Proof.Machine

/-! ## One turn of a host procedure or of the timer (40_frame_loader.md R106, R109) -/

namespace Sys2Proof.Machine

theorem HostProc.request_side (p : HostProc) : p.request.side = .host := by
  cases p <;> rfl

/-! ### The host's turn, for each place of a procedure -/

theorem Bench.turn_host (b : Bench) :
    b.turn .host =
      { b with
        proc := b.proc.answered (effect b.proc.request b.block).out
        block := effect b.proc.request b.block } := by
  rw [Bench.turn, eventOp_of_host b.proc.request_side]

section

variable {s : State} (w : List Bool)

theorem turn_host_done :
    Bench.turn ⟨.done, s, w⟩ .host = ⟨.done, s.respond false, w⟩ := Bench.turn_host _

theorem turn_host_load_idle (hz : s.sr = 0#10) (c : Byte) (rest : List Byte) :
    Bench.turn ⟨.load c rest, s, w⟩ .host = ⟨.wait rest, (s.respond true).loadFrame c, w⟩ := by
  rw [Bench.turn_host, ← effect_load_idle c hz]
  rfl

theorem turn_host_load_busy (hz : s.sr ≠ 0#10) (c : Byte) (rest : List Byte) :
    Bench.turn ⟨.load c rest, s, w⟩ .host = ⟨.wait rest, s.respond false, w⟩ := by
  rw [Bench.turn_host, ← effect_load_busy c hz]
  rfl

theorem turn_host_wait_idle (hz : s.sr = 0#10) (rest : List Byte) :
    Bench.turn ⟨.wait rest, s, w⟩ .host = ⟨.sendStr rest, s.respond false, w⟩ := by
  have hanswer : HostProc.answered (s.outputs false) (.wait rest) = .sendStr rest :=
    if_neg ((State.busy_eq_true s).not.mpr (not_not_intro hz))
  rw [Bench.turn_host, ← hanswer]
  rfl

theorem turn_host_wait_busy (hz : s.sr ≠ 0#10) (rest : List Byte) :
    Bench.turn ⟨.wait rest, s, w⟩ .host = ⟨.wait rest, s.respond false, w⟩ := by
  have hanswer : HostProc.answered (s.outputs false) (.wait rest) = .wait rest :=
    if_pos ((State.busy_eq_true s).mpr hz)
  conv_rhs => rw [← hanswer]
  exact Bench.turn_host _

theorem turn_host_retry_idle (hz : s.sr = 0#10) (c : Byte) :
    Bench.turn ⟨.retry c, s, w⟩ .host = ⟨.done, (s.respond true).loadFrame c, w⟩ := by
  rw [Bench.turn_host, HostProc.request, effect_load_idle c hz]
  rfl

theorem turn_host_retry_busy (hz : s.sr ≠ 0#10) (c : Byte) :
    Bench.turn ⟨.retry c, s, w⟩ .host = ⟨.retry c, s.respond false, w⟩ := by
  rw [Bench.turn_host, HostProc.request, effect_load_busy c hz]
  rfl

end

/-! ### The timer's turn -/

theorem Bench.turn_timer_busy {b : Bench} (h : b.block.Inv) (hz : b.block.sr ≠ 0#10) :
    b.turn .timer =
      { b with
        block := effect .tick b.block
        wire := b.wire ++ [b.block.sr.getLsbD 0] } := by
  rw [Bench.turn, eventOp_tick_armed _ (h.ten_of_busy hz), ← effect_tick_txd]
  rfl

theorem Bench.turn_timer_idle {b : Bench} (h : b.block.Inv) (hz : b.block.sr = 0#10) :
    b.turn .timer = b := by
  rw [Bench.turn, eventOp_tick_disarmed _ (h.idle_iff.mp hz)]

theorem Bench.turn_timer_proc {b : Bench} (h : b.block.Inv) : (b.turn .timer).proc = b.proc := by
  by_cases hz : b.block.sr = 0#10
  · rw [turn_timer_idle h hz]
  · rw [turn_timer_busy h hz]

/-! ### Schedules -/

theorem Bench.inv_turn {b : Bench} (h : b.block.Inv) (t : Turn) : (b.turn t).block.Inv := by
  cases t with
  | host =>
    have henabled : b.block.Enables b.proc.request := by cases b.proc <;> trivial
    rw [turn_host]
    exact h.inv_effect henabled
  | timer =>
    by_cases hz : b.block.sr = 0#10
    · rwa [turn_timer_idle h hz]
    · rw [turn_timer_busy h hz]
      exact h.tick (h.ten_of_busy hz)

theorem Bench.inv_run {b : Bench} (h : b.block.Inv) (ts : List Turn) : (b.run ts).block.Inv := by
  induction ts generalizing b with
  | nil => exact h
  | cons t ts ih => exact ih (inv_turn h t)

theorem Bench.run_append (ts us : List Turn) (b : Bench) :
    b.run (ts ++ us) = (b.run ts).run us := by
  induction ts generalizing b with
  | nil => rfl
  | cons t ts ih => exact ih (b.turn t)

end Sys2Proof.Machine

/-! ## No bit is lost or reordered (40_frame_loader.md R108, R109)

What has been on the wire, what SR still has to send and the frames the procedure has not loaded
yet are together one stream of bits. A TICK moves a bit from the second part to the first, an
accepted LOAD a frame from the third to the second; only a rejected LOAD of SENDSTR, which does not
look at the answer, loses bits. -/

namespace Sys2Proof.Machine

/-- The frames of the characters a procedure has still to LOAD. -/
def HostProc.unloaded : HostProc → List Bool
  | .done => []
  | .load c rest => (c :: rest).flatMap wireFrame
  | .wait rest => rest.flatMap wireFrame
  | .retry c => wireFrame c

theorem HostProc.unloaded_sendStr (cs : List Byte) :
    (HostProc.sendStr cs).unloaded = cs.flatMap wireFrame := by
  cases cs <;> rfl

/-- The bits on the wire, in SR and still to be loaded, in the order of sending. -/
def Bench.stream (b : Bench) : List Bool :=
  b.wire ++ (pendingBits b.block.sr ++ b.proc.unloaded)

theorem stream_turn_timer {b : Bench} (h : b.block.Inv) : (b.turn .timer).stream = b.stream := by
  by_cases hz : b.block.sr = 0#10
  · rw [Bench.turn_timer_idle h hz]
  · rw [Bench.turn_timer_busy h hz, Bench.stream, Bench.stream, effect_tick_sr,
      pendingBits_of_busy hz, List.append_assoc]
    rfl

theorem stream_turn_host {b : Bench} (hload : ∀ c rest, b.proc = .load c rest → b.block.sr = 0#10) :
    (b.turn .host).stream = b.stream := by
  obtain ⟨p, s, w⟩ := b
  cases p with
  | done => rw [turn_host_done]; rfl
  | load c rest =>
    have hz : s.sr = 0#10 := hload c rest rfl
    rw [turn_host_load_idle w hz]
    simp [Bench.stream, hz, pendingBits_zero, State.loadFrame_eq, pendingBits_frame,
      HostProc.unloaded]
  | wait rest =>
    by_cases hz : s.sr = 0#10
    · rw [turn_host_wait_idle w hz, Bench.stream, HostProc.unloaded_sendStr]; rfl
    · rw [turn_host_wait_busy w hz]; rfl
  | retry c =>
    by_cases hz : s.sr = 0#10
    · rw [turn_host_retry_idle w hz]
      simp [Bench.stream, hz, pendingBits_zero, State.loadFrame_eq, pendingBits_frame,
        HostProc.unloaded]
    · rw [turn_host_retry_busy w hz]; rfl

theorem stream_turn {b : Bench} (h : b.block.Inv)
    (hload : ∀ c rest, b.proc = .load c rest → b.block.sr = 0#10) (t : Turn) :
    (b.turn t).stream = b.stream := by
  cases t with
  | host => exact stream_turn_host hload
  | timer => exact stream_turn_timer h

/-- A stage of a procedure that every turn keeps, and in which SENDSTR is never about to LOAD into a
busy block, is kept along every schedule with the stream. -/
theorem stage_and_stream_run {Stage : Bench → Prop}
    (hturn : ∀ b t, b.block.Inv → Stage b → Stage (b.turn t))
    (hload : ∀ b c rest, Stage b → b.proc = .load c rest → b.block.sr = 0#10)
    {b : Bench} (h : b.block.Inv) (hb : Stage b) (ts : List Turn) :
    Stage (b.run ts) ∧ (b.run ts).stream = b.stream := by
  induction ts generalizing b with
  | nil => exact ⟨hb, rfl⟩
  | cons t ts ih =>
    obtain ⟨hstage, hstream⟩ := ih (Bench.inv_turn h t) (hturn b t h hb)
    exact ⟨hstage, hstream.trans (stream_turn h (fun c rest => hload b c rest hb) t)⟩

/-! ### SENDSTR -/

/-- SENDSTR is in WAITIDLE, or the block is idle and a string, perhaps an empty one, is still to be
sent. -/
def Bench.InSendStr (b : Bench) : Prop :=
  (∃ rest, b.proc = .wait rest) ∨ ∃ rest, b.proc = .sendStr rest ∧ b.block.sr = 0#10

theorem Bench.InSendStr.idle {b : Bench} (hb : b.InSendStr) (hwait : ∀ rest, b.proc ≠ .wait rest) :
    b.block.sr = 0#10 := by
  obtain ⟨rest, hp⟩ | ⟨rest, -, hz⟩ := hb
  · exact absurd hp (hwait rest)
  · exact hz

theorem Bench.InSendStr.idle_of_load {b : Bench} {c : Byte} {rest : List Byte} (hb : b.InSendStr)
    (hp : b.proc = .load c rest) : b.block.sr = 0#10 :=
  hb.idle fun _ hw => absurd (hp.symm.trans hw) nofun

theorem Bench.InSendStr.idle_of_done {b : Bench} (hb : b.InSendStr) (hp : b.proc = .done) :
    b.block.sr = 0#10 :=
  hb.idle fun _ hw => absurd (hp.symm.trans hw) nofun

theorem Bench.InSendStr.turn_host {b : Bench} (hb : b.InSendStr) : (b.turn .host).InSendStr := by
  obtain ⟨p, s, w⟩ := b
  obtain ⟨rest, rfl : p = .wait rest⟩ | ⟨rest, rfl : p = .sendStr rest, hz : s.sr = 0#10⟩ := hb
  · by_cases hz : s.sr = 0#10
    · rw [turn_host_wait_idle w hz]
      exact .inr ⟨rest, rfl, hz⟩
    · rw [turn_host_wait_busy w hz]
      exact .inl ⟨rest, rfl⟩
  · cases rest with
    | nil =>
      rw [HostProc.sendStr, turn_host_done]
      exact .inr ⟨[], rfl, hz⟩
    | cons c cs =>
      rw [HostProc.sendStr, turn_host_load_idle w hz]
      exact .inl ⟨cs, rfl⟩

theorem Bench.InSendStr.turn {b : Bench} (h : b.block.Inv) (hb : b.InSendStr) (t : Turn) :
    (b.turn t).InSendStr := by
  cases t with
  | host => exact hb.turn_host
  | timer =>
    obtain ⟨rest, hp⟩ | ⟨rest, hp, hz⟩ := hb
    · exact .inl ⟨rest, (turn_timer_proc h).trans hp⟩
    · rw [turn_timer_idle h hz]
      exact .inr ⟨rest, hp, hz⟩

theorem Bench.InSendStr.run {b : Bench} (h : b.block.Inv) (hb : b.InSendStr) (ts : List Turn) :
    (b.run ts).InSendStr ∧ (b.run ts).stream = b.stream :=
  stage_and_stream_run (fun _ t h hb => hb.turn h t) (fun _ _ _ hb => hb.idle_of_load) h hb ts

/-- A SENDSTR that has returned left nothing of its stream in SR. -/
theorem Bench.InSendStr.wire_of_done {b : Bench} (hb : b.InSendStr) (hdone : b.proc = .done) :
    b.wire = b.stream := by
  rw [stream, hb.idle_of_done hdone, hdone, pendingBits_zero, HostProc.unloaded, List.append_nil,
    List.append_nil]

/-- Settles O48: the wire is a beginning of the stream, and the stream is that of the start, the
frames of the string. -/
theorem sendStrSendsWholeFramesInOrder : Obligations.SendStrSendsWholeFramesInOrder := by
  rintro cs s ts b hs hz rfl
  have hstart : Bench.stream ⟨.sendStr cs, s, []⟩ = cs.flatMap wireFrame := by
    rw [Bench.stream, hz, HostProc.unloaded_sendStr]
    rfl
  obtain ⟨hstage, hstream⟩ :=
    Bench.InSendStr.run (b := ⟨.sendStr cs, s, []⟩) hs (.inr ⟨cs, rfl, hz⟩) ts
  rw [hstart] at hstream
  refine ⟨⟨_, hstream⟩, fun hdone => ⟨(hstage.wire_of_done hdone).trans hstream, ?_⟩⟩
  have hinv := Bench.inv_run (b := ⟨.sendStr cs, s, []⟩) hs ts
  have hidle := hstage.idle_of_done hdone
  exact ⟨hidle, hinv.idle_iff.mp hidle, hinv.idle_high hidle⟩

/-- Settles O49: after the rejected LOAD SENDSTR is in WAITIDLE, with the frame in flight and the
other characters as its stream. -/
theorem sendStrWhileBusyLosesItsFirstCharacter :
    Obligations.SendStrWhileBusyLosesItsFirstCharacter := by
  rintro c cs s ts b hs hz rfl hdone
  rw [Bench.run, HostProc.sendStr, turn_host_load_busy [] hz] at hdone ⊢
  obtain ⟨hstage, hstream⟩ := Bench.InSendStr.run (b := ⟨.wait cs, s.respond false, []⟩)
    (hs.respond false) (.inl ⟨cs, rfl⟩) ts
  exact (hstage.wire_of_done hdone).trans hstream

/-! ### The retry idiom -/

/-- The retry idiom still asks, or it has returned. -/
def Bench.InRetry (b : Bench) : Prop := b.proc = .done ∨ ∃ c, b.proc = .retry c

theorem Bench.InRetry.turn_host {b : Bench} (hb : b.InRetry) : (b.turn .host).InRetry := by
  obtain ⟨p, s, w⟩ := b
  obtain rfl | ⟨c, rfl⟩ : p = .done ∨ ∃ c, p = .retry c := hb
  · exact .inl rfl
  · by_cases hz : s.sr = 0#10
    · rw [turn_host_retry_idle w hz]
      exact .inl rfl
    · rw [turn_host_retry_busy w hz]
      exact .inr ⟨c, rfl⟩

theorem Bench.InRetry.turn {b : Bench} (h : b.block.Inv) (hb : b.InRetry) (t : Turn) :
    (b.turn t).InRetry := by
  cases t with
  | host => exact hb.turn_host
  | timer => rwa [InRetry, turn_timer_proc h]

theorem Bench.InRetry.ne_load {b : Bench} (hb : b.InRetry) (c : Byte) (rest : List Byte) :
    b.proc ≠ .load c rest := by
  obtain hp | ⟨d, hp⟩ := hb <;> simp [hp]

/-- The retry idiom looks at the answer of every LOAD, so it loses nothing. -/
theorem Bench.InRetry.stream_run {b : Bench} (h : b.block.Inv) (hb : b.InRetry) (ts : List Turn) :
    (b.run ts).stream = b.stream :=
  (stage_and_stream_run (fun _ t h hb => hb.turn h t)
    (fun _ c rest hb hp => absurd hp (hb.ne_load c rest)) h hb ts).2

end Sys2Proof.Machine

/-! ## Termination under fairness (40_frame_loader.md R107, R109; 70_reset_and_hazards.md R226) -/

namespace Sys2Proof.Machine

/-- A bound on the fair rounds to the procedure's return: one for a LOAD, at most ten for a frame in
flight and one for the operation that finds the block idle. -/
def Bench.roundsLeft (b : Bench) : Nat :=
  match b.proc with
  | .done => 0
  | .load _ rest => 12 * (rest.length + 1)
  | .wait rest => 12 * rest.length + (b.block.remaining + 1)
  | .retry _ => b.block.remaining + 1

/-- Whose turn the procedure needs to get on: its own, unless it waits for a frame in flight. -/
def Bench.awaited (b : Bench) : Turn :=
  match b.proc with
  | .done => .host
  | .load _ _ => .host
  | .wait _ => if b.block.sr = 0#10 then .host else .timer
  | .retry _ => if b.block.sr = 0#10 then .host else .timer

theorem roundsLeft_sendStr (cs : List Byte) (s : State) (w : List Bool) :
    Bench.roundsLeft ⟨.sendStr cs, s, w⟩ = 12 * cs.length := by
  cases cs <;> rfl

theorem done_of_roundsLeft_eq_zero {b : Bench} (hb : b.roundsLeft = 0) : b.proc = .done := by
  obtain ⟨p, s, w⟩ := b
  cases p with
  | done => rfl
  | load c rest | wait rest | retry c => exact absurd hb (Nat.succ_ne_zero _)

/-- A turn the procedure does not need brings it no further and leaves what it needs. -/
theorem turn_of_not_awaited {b : Bench} (h : b.block.Inv) {t : Turn} (ht : t ≠ b.awaited) :
    (b.turn t).roundsLeft = b.roundsLeft ∧ (b.turn t).awaited = b.awaited := by
  by_cases hz : b.block.sr = 0#10
  case pos =>
    cases t with
    | timer => rw [Bench.turn_timer_idle h hz]; exact ⟨rfl, rfl⟩
    | host =>
      have hawaited : b.awaited = .host := by
        rw [Bench.awaited]
        split <;> simp [hz]
      exact absurd hawaited.symm ht
  case neg =>
    obtain ⟨p, s, w⟩ := b
    cases p with
    | done | load c rest =>
      cases t with
      | host => exact absurd rfl ht
      | timer => rw [Bench.turn_timer_busy h hz]; exact ⟨rfl, rfl⟩
    | wait rest =>
      cases t with
      | host => rw [turn_host_wait_busy w hz]; exact ⟨rfl, rfl⟩
      | timer => exact absurd (if_neg hz).symm ht
    | retry c =>
      cases t with
      | host => rw [turn_host_retry_busy w hz]; exact ⟨rfl, rfl⟩
      | timer => exact absurd (if_neg hz).symm ht

/-- The needed turn loads a frame, of at most ten bits, or sends a bit, or finds the block idle. -/
theorem roundsLeft_turn_awaited {b : Bench} (h : b.block.Inv) :
    (b.turn b.awaited).roundsLeft ≤ b.roundsLeft - 1 := by
  obtain ⟨p, s, w⟩ := b
  cases p with
  | done => exact Nat.le_refl 0
  | load c rest =>
    have hframe := remaining_le (effect (.load c) s)
    rw [Bench.awaited, Bench.turn_host]
    simp only [Bench.roundsLeft, HostProc.request, HostProc.answered]
    omega
  | wait rest =>
    by_cases hz : s.sr = 0#10
    · rw [Bench.awaited, if_pos hz, turn_host_wait_idle w hz, roundsLeft_sendStr]
      simp only [Bench.roundsLeft]
      omega
    · have hbusy : s.remaining ≠ 0 := remaining_eq_zero_iff.not.mpr hz
      rw [Bench.awaited, if_neg hz, Bench.turn_timer_busy h hz]
      simp only [Bench.roundsLeft, remaining_effect_tick]
      omega
  | retry c =>
    by_cases hz : s.sr = 0#10
    · rw [Bench.awaited, if_pos hz, turn_host_retry_idle w hz]
      exact Nat.zero_le _
    · have hbusy : s.remaining ≠ 0 := remaining_eq_zero_iff.not.mpr hz
      rw [Bench.awaited, if_neg hz, Bench.turn_timer_busy h hz]
      simp only [Bench.roundsLeft, remaining_effect_tick]
      omega

theorem roundsLeft_turn_le {b : Bench} (h : b.block.Inv) (t : Turn) :
    (b.turn t).roundsLeft ≤ b.roundsLeft := by
  by_cases ht : t = b.awaited
  · rw [ht]
    exact (roundsLeft_turn_awaited h).trans (Nat.sub_le _ _)
  · obtain ⟨hrounds, -⟩ := turn_of_not_awaited h ht
    exact hrounds.le

theorem roundsLeft_run_le {b : Bench} (h : b.block.Inv) (ts : List Turn) :
    (b.run ts).roundsLeft ≤ b.roundsLeft := by
  induction ts generalizing b with
  | nil => exact Nat.le_refl _
  | cons t ts ih => exact (ih (Bench.inv_turn h t)).trans (roundsLeft_turn_le h t)

/-- The needed turn stays the needed one until it comes. -/
theorem roundsLeft_run_of_awaited_mem {b : Bench} (h : b.block.Inv) {ts : List Turn}
    (hts : b.awaited ∈ ts) : (b.run ts).roundsLeft ≤ b.roundsLeft - 1 := by
  induction ts generalizing b with
  | nil => exact absurd hts List.not_mem_nil
  | cons t ts ih =>
    by_cases ht : t = b.awaited
    · subst ht
      exact (roundsLeft_run_le (Bench.inv_turn h _) ts).trans (roundsLeft_turn_awaited h)
    · obtain ⟨hrounds, hawaited⟩ := turn_of_not_awaited h ht
      rw [← hrounds]
      exact ih (Bench.inv_turn h t)
        (hawaited ▸ (List.mem_cons.mp hts).resolve_left (Ne.symm ht))

theorem FairRound.mem {r : List Turn} (hr : FairRound r) (t : Turn) : t ∈ r := by
  obtain ⟨hhost, htimer⟩ := hr
  cases t with
  | host => exact hhost
  | timer => exact htimer

theorem roundsLeft_run_fair {b : Bench} (h : b.block.Inv) {rs : List (List Turn)}
    (hfair : ∀ r ∈ rs, FairRound r) : (b.run rs.flatten).roundsLeft ≤ b.roundsLeft - rs.length := by
  induction rs generalizing b with
  | nil => exact Nat.le_refl _
  | cons r rs ih =>
    obtain ⟨hr, hrs⟩ := List.forall_mem_cons.mp hfair
    have hfirst := roundsLeft_run_of_awaited_mem h (hr.mem b.awaited)
    have hothers := ih (Bench.inv_run h r) hrs
    rw [List.flatten_cons, Bench.run_append, List.length_cons]
    omega

theorem done_of_fair_rounds {b : Bench} (h : b.block.Inv) {rs : List (List Turn)}
    (hfair : ∀ r ∈ rs, FairRound r) (hlen : b.roundsLeft ≤ rs.length) :
    (b.run rs.flatten).proc = .done := by
  have hrounds := roundsLeft_run_fair h hfair
  exact done_of_roundsLeft_eq_zero (by omega)

/-- Settles O50: `roundsLeft` is twelve for each character at the start. -/
theorem sendStrTerminatesUnderFairness : Obligations.SendStrTerminatesUnderFairness := by
  intro cs s w rs hs hfair hlen
  exact done_of_fair_rounds hs hfair ((roundsLeft_sendStr cs s w).trans_le hlen)

/-- Settles O51: `roundsLeft` is at most eleven for the retry idiom, and when it has returned the
character's frame has gone from the procedure to SR and the wire. -/
theorem retryEndsAndLosesNothing : Obligations.RetryEndsAndLosesNothing := by
  constructor
  · intro c s w rs hs hfair hlen
    exact done_of_fair_rounds hs hfair ((Nat.succ_le_succ (remaining_le s)).trans hlen)
  · rintro c s ts b hs rfl hdone
    have hstream := Bench.InRetry.stream_run (b := ⟨.retry c, s, []⟩) hs (.inr ⟨c, rfl⟩) ts
    rw [Bench.stream, hdone, HostProc.unloaded, List.append_nil] at hstream
    exact hstream

end Sys2Proof.Machine

/-! ## TICK, the operation of the bit emitter (41_bit_emitter.md R120, R121) -/

namespace Sys2Proof.Machine

theorem elements_effect_tick (s : State) :
    (effect .tick s).elements =
      { sr := s.sr >>> 1
        txd := s.sr.getLsbD 0
        ten := if s.sr >>> 1 = 0#10 then false else s.ten
        cnt := 0 } := by
  rw [effect, State.endFrame_shiftOut_eq, State.elements]

theorem eventOp_tick_isSome (s : State) : (eventOp .tick s).isSome = s.ten := by
  cases hten : s.ten with
  | false => rw [eventOp_tick_disarmed s hten]; rfl
  | true => rw [eventOp_tick_armed s hten]; rfl

/-- Settles O6: `endFrame_shiftOut_eq` is the whole equation, BUSY reads the shifted SR, and the
worked examples are the equation of the four elements at two values of SR. -/
theorem tickEmitsOneBit : Obligations.TickEmitsOneBit := by
  refine ⟨rfl, fun s => ?equation, fun s t ht => ?busy, eventOp_tick_isSome,
    fun s hsr hten _ => ⟨_, exec_eq_effect .tick s, ?midframe⟩,
    fun s hsr hten => ⟨_, exec_eq_effect .tick s, ?draining⟩⟩
  case equation => rw [exec_tick, State.endFrame_shiftOut_eq]
  case busy =>
    obtain rfl := exec_eq_next_iff.mp ht
    rw [State.busy, effect_tick_sr]
  case midframe | draining =>
    rw [elements_effect_tick, hsr, hten]
    rfl

/-- Settles O7: TICK's write to SR is the shift of an unsigned word, which has no bit 10 to move
down into bit 9. -/
theorem tickShiftIsLogical : Obligations.TickShiftIsLogical := by
  intro s
  refine ⟨_, exec_eq_effect .tick s, fun i _ => ?_, ?_, ?_, effect_tick_txd s⟩
  · rw [effect_tick_sr, BitVec.getLsbD_ushiftRight, Nat.add_comm]
  · rw [effect_tick_sr, BitVec.getLsbD_ushiftRight]
    exact BitVec.getLsbD_of_ge s.sr 10 (Nat.le_refl 10)
  · rw [effect_tick_sr, BitVec.toNat_ushiftRight, Nat.shiftRight_eq_div_pow, Nat.pow_one]

end Sys2Proof.Machine

/-! ## TICK happens only while armed (41_bit_emitter.md R124) -/

namespace Sys2Proof.Machine

theorem eventVector_of_disarmed {s : State} (hten : s.ten = false) (cke : Bool) :
    s.eventVector cke ≠ 0b111#3 := by
  intro hev
  have hop := decodeEV_eventVector s cke
  rw [hev, hten] at hop
  exact absurd hop nofun

theorem cycleOps_timer_of_disarmed {s : State} (hten : s.ten = false) :
    s.cycleOps.timer ≠ some .tick := by
  cases hr : s.ports.rst with
  | false => rw [cycleOps_of_not_rst hr, timerOp_of_disarmed hten]; exact nofun
  | true => rw [cycleOps_of_rst hr]; exact nofun

/-- The pin is the timer side's to write, and a disarmed timer side is IDLE. -/
theorem step_txd_of_disarmed {s t : State} (hten : s.ten = false) (hr : s.ports.rst = false)
    (ht : step s = .next t) : t.txd = s.txd := by
  rw [step_of_not_rst hr, timerOp_of_disarmed hten, Host.Outcome.next.injEq] at ht
  rw [← ht]
  rfl

theorem effect_txd_of_host {i : Instr} (hi : i.side = .host) (hinit : i ≠ .init) (s : State) :
    (effect i s).txd = s.txd := by
  by_contra hmoved
  obtain rfl | rfl := writer_of_txd hmoved
  · exact hinit rfl
  · exact absurd hi nofun

/-- Settles O16: with TEN = 0 neither level selects a TICK, and only INIT and TICK write the pin. -/
theorem tickOnlyWhileArmed : Obligations.TickOnlyWhileArmed := by
  refine ⟨fun s cke hten => ⟨eventOp_tick_disarmed s hten, eventVector_of_disarmed hten cke,
    cycleOps_timer_of_disarmed hten⟩, fun s t => step_txd_of_disarmed, fun i s t hi hinit ht => ?_⟩
  obtain rfl := exec_eq_next_iff.mp ht
  exact effect_txd_of_host hi hinit s

end Sys2Proof.Machine

/-! ## A frame in flight runs to completion (41_bit_emitter.md R125, R126, R129)

While SR is nonzero a host operation other than INIT does no more than record its answer, so in any
mixture of TICKs and such operations SR moves one place a TICK. -/

namespace Sys2Proof.Machine

theorem remaining_pos_iff {s : State} : 0 < s.remaining ↔ s.sr ≠ 0#10 :=
  Nat.pos_iff_ne_zero.trans remaining_eq_zero_iff.not

theorem effect_of_host_busy {i : Instr} {s : State} (hi : i.side = .host) (hinit : i ≠ .init)
    (hbusy : s.sr ≠ 0#10) : effect i s = s.respond false := by
  cases i with
  | init => exact absurd rfl hinit
  | load c => exact effect_load_busy c hbusy
  | poll => rfl
  | tick | cstep | hold | idle => exact absurd hi nofun

theorem effect_ten_of_host {i : Instr} {s : State} (hi : i.side = .host) (hinit : i ≠ .init)
    (hten : s.ten = true) : (effect i s).ten = true := by
  by_contra hcleared
  obtain rfl | ⟨rfl, -⟩ | ⟨c, rfl, hz⟩ := writer_of_ten fun h => hcleared (h.trans hten)
  · exact hinit rfl
  · exact absurd hi nofun
  · exact hcleared (by rw [effect_load_idle c hz]; rfl)

theorem eventRun_during_frame {ops : List Instr} {s : State} (hten : s.ten = true)
    (hops : ∀ i ∈ ops, i = .tick ∨ i.side = .host ∧ i ≠ .init)
    (hcount : ops.count .tick < s.remaining) :
    ∃ t, eventRun ops s = some t ∧ t.sr = s.sr >>> ops.count .tick ∧ t.ten = true := by
  induction ops generalizing s with
  | nil => exact ⟨s, rfl, (BitVec.ushiftRight_zero _).symm, hten⟩
  | cons i is ih =>
    obtain ⟨hi, his⟩ := List.forall_mem_cons.mp hops
    obtain rfl | ⟨hhost, hinit⟩ := hi
    · rw [List.count_cons_self] at hcount ⊢
      have hleft : is.count .tick < (effect .tick s).remaining := by
        rw [remaining_effect_tick]
        omega
      have hbusy : (effect .tick s).sr ≠ 0#10 := remaining_pos_iff.mp (Nat.zero_lt_of_lt hleft)
      have harmed : (effect .tick s).ten = true := by
        rw [effect_tick_ten, ← effect_tick_sr, if_neg hbusy, hten]
      obtain ⟨t, ht, hsr, htten⟩ := ih harmed his hleft
      refine ⟨t, (eventRun_cons is (eventOp_tick_armed s hten)).trans ht, ?_, htten⟩
      rw [hsr, effect_tick_sr, shift_shift, Nat.add_comm]
    · have htick : i ≠ .tick := by
        rintro rfl
        exact absurd hhost nofun
      rw [List.count_cons_of_ne htick] at hcount ⊢
      have hbusy : s.sr ≠ 0#10 := remaining_pos_iff.mp (Nat.zero_lt_of_lt hcount)
      rw [eventRun_cons is (eventOp_of_host hhost s), effect_of_host_busy hhost hinit hbusy]
      exact ih (s := s.respond false) hten his hcount

/-! ### Any operations but INIT -/

theorem eventOp_tick_or_host {i : Instr} {s t : State} (h : eventOp i s = some t) :
    i = .tick ∨ i.side = .host := by
  cases i with
  | init | load c | poll => exact .inr rfl
  | tick => exact .inl rfl
  | cstep | hold | idle => exact absurd h nofun

theorem eventRun_tick_or_host {ops : List Instr} {s t : State} (h : eventRun ops s = some t) :
    ∀ i ∈ ops, i = .tick ∨ i.side = .host := by
  induction ops generalizing s with
  | nil => exact nofun
  | cons i is ih =>
    simp only [eventRun] at h
    split at h
    · next u hu => exact List.forall_mem_cons.mpr ⟨eventOp_tick_or_host hu, ih h⟩
    · exact absurd h nofun

/-- Settles O15: a host operation meets a nonzero SR by answering, and the invariant arms a block
with bits remaining. -/
theorem frameCannotBeCancelled : Obligations.FrameCannotBeCancelled := by
  constructor
  · intro i s t hi hinit ht
    obtain rfl := exec_eq_next_iff.mp ht
    refine ⟨fun hbusy => ?_, effect_ten_of_host hi hinit⟩
    rw [effect_of_host_busy hi hinit hbusy, State.respond_sr]
  · intro ops s t hs hinit ht hcount
    have hbusy : s.sr ≠ 0#10 := remaining_pos_iff.mp (Nat.zero_lt_of_lt hcount)
    have hops : ∀ i ∈ ops, i = .tick ∨ i.side = .host ∧ i ≠ .init := fun i hi =>
      (eventRun_tick_or_host ht i hi).imp_right fun hhost => ⟨hhost, ne_of_mem_of_not_mem hi hinit⟩
    obtain ⟨u, hu, hsr, hten⟩ := eventRun_during_frame (hs.ten_of_busy hbusy) hops hcount
    obtain rfl := Option.some.inj (hu.symm.trans ht)
    exact ⟨hsr, hten⟩

/-! ### From LOAD to drain -/

theorem eventRun_load_during_frame {s : State} {c : Byte} {ops : List Instr} (hz : s.sr = 0#10)
    (hops : ∀ i ∈ ops, i = .tick ∨ i = .poll ∨ ∃ d, i = .load d) (hcount : ops.count .tick ≤ 9) :
    ∃ t, eventRun (.load c :: ops) s = some t ∧ t.sr = frame c >>> ops.count .tick ∧
      t.ten = true := by
  rw [eventRun_cons ops (eventOp_load_idle s c hz)]
  refine eventRun_during_frame (s := (s.respond true).loadFrame c) rfl (fun i hi => ?_)
    ((Nat.lt_succ_of_le hcount).trans_eq (bitlen_frame c).symm)
  obtain htick | rfl | ⟨d, rfl⟩ := hops i hi
  · exact .inl htick
  · exact .inr ⟨rfl, nofun⟩
  · exact .inr ⟨rfl, nofun⟩

/-- Settles O40: before the last TICK SR is the frame shifted once for each TICK so far, so that
TICK writes the frame's next bit, and drains SR when nine bits have gone before it. -/
theorem frameIntegrity : Obligations.FrameIntegrity := by
  refine ⟨fun s c ops hz hops hcount => ?_,
    fun c => ⟨frame_start c, frame_stop c, fun _ => frame_character c⟩⟩
  obtain ⟨t, ht, hsr, hten⟩ := eventRun_load_during_frame (c := c) hz hops hcount
  have hshift : (effect .tick t).sr = frame c >>> (ops.count .tick + 1) := by
    rw [effect_tick_sr, hsr, shift_shift]
  refine ⟨effect .tick t, ?_, ?_, hshift, ?_, fun hlast => ?_⟩
  · rw [eventRun_append, ht]
    exact eventRun_cons [] (eventOp_tick_armed t hten)
  · rw [effect_tick_txd, hsr, BitVec.getLsbD_ushiftRight, Nat.add_zero]
  · have hdrained : frame c >>> (ops.count .tick + 1) = 0#10 ↔ ¬ ops.count .tick < 9 := by
      rw [frame_shift_eq_zero_iff]
      omega
    rw [effect_tick_ten, ← effect_tick_sr, hshift, hten]
    simp only [hdrained, ite_not, Bool.if_true_left, Bool.or_false]
  · rw [hshift, frame_shift_eq_zero_iff, hlast]

/-! ### The number of TICKs -/

theorem State.Inv.eventRun_ticks {s : State} (h : s.Inv) {n : Nat} (hn : n ≤ s.remaining) :
    ∃ t, eventRun (ticks n) s = some t ∧ t.remaining = s.remaining - n ∧ t.Inv := by
  obtain ⟨t, ht, hsr⟩ := Machine.eventRun_ticks h.ten_of_busy hn
  exact ⟨t, ht, by rw [State.remaining, hsr, bitlen_ushiftRight, State.remaining],
    h.inv_eventRun ht⟩

/-- The TICK after the last has no step, and so no run goes past it. -/
theorem State.Inv.eventRun_ticks_past {s : State} (h : s.Inv) {n : Nat} (hn : s.remaining < n) :
    eventRun (ticks n) s = none := by
  obtain ⟨k, rfl⟩ := Nat.exists_eq_add_of_lt hn
  obtain ⟨t, ht, hleft, hinv⟩ := h.eventRun_ticks (Nat.le_refl _)
  have hidle : t.sr = 0#10 := by rw [← remaining_eq_zero_iff, hleft, Nat.sub_self]
  have hsplit : ticks (s.remaining + k + 1) = ticks s.remaining ++ .tick :: ticks k := by
    rw [ticks, Nat.add_assoc, List.replicate_add, List.replicate_succ]
    rfl
  rw [hsplit, eventRun_append, ht, Option.bind_some, eventRun,
    eventOp_tick_disarmed t (hinv.idle_iff.mp hidle)]

/-- Settles O41: each TICK takes one off the bits remaining, and under the invariant the block is
armed exactly while some remain. -/
theorem frameTakesTenTicks : Obligations.FrameTakesTenTicks := by
  refine ⟨fun s n hs => ⟨fun hn => ?before, fun hn => ?last, hs.eventRun_ticks_past, remaining_le s⟩,
    fun s t c hz ht => ?loaded⟩
  case before =>
    obtain ⟨t, ht, hleft, hinv⟩ := hs.eventRun_ticks hn.le
    have hbusy : t.sr ≠ 0#10 := remaining_pos_iff.mp (hleft ▸ Nat.sub_pos_of_lt hn)
    exact ⟨t, ht, hbusy, hinv.ten_of_busy hbusy⟩
  case last =>
    obtain ⟨t, ht, hleft, hinv⟩ := hs.eventRun_ticks hn.le
    have hidle : t.sr = 0#10 := by rw [← remaining_eq_zero_iff, hleft, hn, Nat.sub_self]
    exact ⟨t, ht, hidle, hinv.idle_iff.mp hidle⟩
  case loaded =>
    obtain rfl := exec_eq_next_iff.mp ht
    rw [effect_load_idle c hz]
    exact bitlen_frame c

end Sys2Proof.Machine

/-! ## CSTEP, HOLD and IDLE, the operations of the timing source besides TICK
(42_timing_source.md R141 to R147) -/

namespace Sys2Proof.Machine

/-- Settles O8: CSTEP is the one write `countUp`, and `setCnt` keeps CNT's width. -/
theorem cstepCounts : Obligations.CstepCounts := by
  intro s
  rw [exec_cstep, State.countUp_eq]

/-- Settles O9: in the event vector of an armed block TEN = 1 and CKE = 0 select HOLD before MATCH
is reached. -/
theorem holdChangesNothing : Obligations.HoldChangesNothing := by
  refine ⟨exec_hold, fun s hten => ?_⟩
  rw [decodeEV_eventVector, hten]
  rfl

/-- The answer of an edge is its host operation's. -/
theorem step_out_of_not_rst {s t : State} (hr : s.ports.rst = false) (ht : step s = .next t) :
    t.out = (effect s.hostOp s.passEdge).out := by
  rw [step_of_not_rst hr, Host.Outcome.next.injEq] at ht
  rw [← ht]
  rfl

theorem elements_step_of_rst {s t : State} (hr : s.ports.rst = true) (ht : step s = .next t) :
    t.elements = { sr := 0#10, txd := true, ten := false, cnt := 0 } := by
  rw [step_of_rst hr, Host.Outcome.next.injEq] at ht
  rw [← ht, elements_effect_init]

/-- CNT is the timer side's to write, and a disarmed timer side is IDLE. -/
theorem step_cnt_of_disarmed {s t : State} (hten : s.ten = false) (hcnt : s.cnt = 0)
    (ht : step s = .next t) : t.cnt = 0 := by
  cases hr : s.ports.rst with
  | true => exact congrArg Elements.cnt (elements_step_of_rst hr ht)
  | false =>
    rw [step_of_not_rst hr, timerOp_of_disarmed hten, Host.Outcome.next.injEq] at ht
    rw [← ht]
    exact hcnt

/-- A LOAD is accepted in an edge without INIT that finds SR = 0. -/
theorem sr_eq_zero_of_step_acc {s t : State} (ht : step s = .next t) (hacc : t.out.acc = true) :
    s.ports.rst = false ∧ s.sr = 0#10 := by
  cases hr : s.ports.rst with
  | true =>
    rw [step_of_rst hr, Host.Outcome.next.injEq] at ht
    rw [← ht] at hacc
    exact absurd hacc nofun
  | false =>
    rw [step_out_of_not_rst hr ht] at hacc
    exact ⟨rfl, (hostOp_accepted hacc).1⟩

/-- Settles O10: TEN = 0 selects IDLE whatever the other two signals are, and under the invariant
an accepted LOAD finds TEN = 0. -/
theorem idleChangesNothing : Obligations.IdleChangesNothing := by
  refine ⟨exec_idle, fun w hw => ?word, fun s cke hten => ?vector,
    fun s t => step_cnt_of_disarmed, fun s t hs ht hacc => ?loading⟩
  case word => rw [decodeEV, hw]; rfl
  case vector => rw [decodeEV_eventVector, hten]; rfl
  case loading =>
    obtain ⟨hr, hz⟩ := sr_eq_zero_of_step_acc ht hacc
    rw [cycleOps_of_not_rst hr, timerOp_of_disarmed (hs.idle_iff.mp hz)]

/-! ### ARM and DISARM -/

theorem effect_load_cnt (c : Byte) (s : State) : (effect (.load c) s).cnt = s.cnt := by
  rw [effect]
  split <;> rfl

theorem effect_arms {i : Instr} {s : State} (hten : s.ten = false)
    (harmed : (effect i s).ten = true) :
    (∃ c, i = .load c) ∧ s.sr = 0#10 ∧ (effect i s).cnt = s.cnt := by
  obtain rfl | ⟨rfl, -⟩ | ⟨c, rfl, hz⟩ := writer_of_ten (i := i) (s := s) (by simp [hten, harmed])
  · exact absurd harmed nofun
  · rw [effect_tick_ten, hten, ite_self] at harmed
    exact absurd harmed nofun
  · exact ⟨⟨c, rfl⟩, hz, effect_load_cnt c s⟩

theorem effect_disarms {i : Instr} {s : State} (hten : s.ten = true)
    (hdisarmed : (effect i s).ten = false) :
    (i = .init ∨ i = .tick) ∧ (effect i s).sr = 0#10 ∧ (effect i s).cnt = 0 := by
  obtain rfl | ⟨rfl, hdrained⟩ | ⟨c, rfl, hz⟩ :=
    writer_of_ten (i := i) (s := s) (by simp [hten, hdisarmed])
  · have he := elements_effect_init s
    exact ⟨.inl rfl, congrArg Elements.sr he, congrArg Elements.cnt he⟩
  · exact ⟨.inr rfl, hdrained, congrArg Elements.cnt (elements_effect_tick s)⟩
  · rw [effect_load_idle c hz] at hdisarmed
    exact absurd hdisarmed nofun

/-- Settles O14: of the writers of TEN only LOAD raises it, and LOAD never lowers it. -/
theorem whoArmsAndDisarms : Obligations.WhoArmsAndDisarms := by
  constructor <;> intro i s t ht
  · obtain rfl := exec_eq_next_iff.mp ht
    exact effect_arms
  · obtain rfl := exec_eq_next_iff.mp ht
    exact effect_disarms

end Sys2Proof.Machine

/-! ## The timer's operation of an edge (42_timing_source.md section 2) -/

namespace Sys2Proof.Machine

theorem cycleOps_timer_eq_some_iff {s : State} {i : Instr} :
    s.cycleOps.timer = some i ↔ s.ports.rst = false ∧ s.timerOp = i := by
  cases hr : s.ports.rst with
  | true => simp [cycleOps_of_rst hr]
  | false => simp [cycleOps_of_not_rst hr]

/-- The four timer operations, each with the signals that select it. -/
theorem timerOp_cases (s : State) :
    (s.ten = false ∧ s.timerOp = .idle) ∨
    (s.ten = true ∧ s.ports.cke = false ∧ s.timerOp = .hold) ∨
    (s.ten = true ∧ s.ports.cke = true ∧ s.cnt ≠ s.cfg.bitPeriodTicks - 1 ∧ s.timerOp = .cstep) ∨
    (s.ten = true ∧ s.ports.cke = true ∧ s.cnt = s.cfg.bitPeriodTicks - 1 ∧ s.timerOp = .tick) := by
  cases hten : s.ten with
  | false => exact .inl ⟨rfl, timerOp_of_disarmed hten⟩
  | true =>
    cases hcke : s.ports.cke with
    | false => exact .inr (.inl ⟨rfl, rfl, by simp [State.timerOp, hten, hcke]⟩)
    | true =>
      by_cases hcnt : s.cnt = s.cfg.bitPeriodTicks - 1
      · exact .inr (.inr (.inr ⟨rfl, rfl, hcnt, timerOp_eq_tick hten hcke hcnt⟩))
      · have hmatch := (State.compareMatch_eq_false s).mpr hcnt
        exact .inr (.inr (.inl ⟨rfl, rfl, hcnt, by simp [State.timerOp, hten, hcke, hmatch]⟩))

/-- Since the four cases exclude each other, each operation's signals select it and no other. -/
theorem timerOp_eq_iff (s : State) :
    (s.timerOp = .tick ↔
      s.ten = true ∧ s.ports.cke = true ∧ s.cnt = s.cfg.bitPeriodTicks - 1) ∧
    (s.timerOp = .cstep ↔
      s.ten = true ∧ s.ports.cke = true ∧ s.cnt ≠ s.cfg.bitPeriodTicks - 1) ∧
    (s.timerOp = .hold ↔ s.ten = true ∧ s.ports.cke = false) ∧
    (s.timerOp = .idle ↔ s.ten = false) := by
  obtain ⟨hten, hop⟩ | ⟨hten, hcke, hop⟩ | ⟨hten, hcke, hcnt, hop⟩ | ⟨hten, hcke, hcnt, hop⟩ :=
    timerOp_cases s
  · simp [hop, hten]
  · simp [hop, hten, hcke]
  · simp [hop, hten, hcke, hcnt]
  · simp [hop, hten, hcke, hcnt]

theorem timerOp_side (s : State) : s.timerOp.side = .timer := by
  rw [State.timerOp, ← decodeEV_eventVector, decodeEV_side]

theorem cycleOps_wf (s : State) : s.cycleOps.wf = true := by
  cases hr : s.ports.rst with
  | true => rw [cycleOps_of_rst hr]; rfl
  | false =>
    rw [cycleOps_of_not_rst hr]
    simp [CycleOps.wf, hostOp_side, hostOp_ne_init, timerOp_side]

/-- The pin is written by INIT, or by the timer side with a TICK. -/
theorem step_writer_of_txd {s t : State} (ht : step s = .next t) (hmoved : t.txd ≠ s.txd) :
    s.cycleOps.host = .init ∨ s.cycleOps.timer = some .tick := by
  cases hr : s.ports.rst with
  | true => exact .inl (by rw [cycleOps_of_rst hr])
  | false =>
    rw [step_of_not_rst hr, Host.Outcome.next.injEq] at ht
    rw [← ht] at hmoved
    obtain hinit | htick := writer_of_txd (s := s.passEdge) hmoved
    · exact absurd (hinit ▸ timerOp_side s) nofun
    · exact .inr (cycleOps_timer_eq_some_iff.mpr ⟨hr, htick⟩)

/-- Settles O31: beside INIT no timer operation is selected, and beside any other host operation the
four cases of the timer's operation exclude each other. -/
theorem timerSideOperationOfAnEdge : Obligations.TimerSideOperationOfAnEdge := by
  intro s
  obtain ⟨htick, hcstep, hhold, hidle⟩ := timerOp_eq_iff s
  simp only [cycleOps_timer_eq_some_iff]
  exact ⟨and_congr_right fun _ => htick, and_congr_right fun _ => hcstep,
    and_congr_right fun _ => hhold, and_congr_right fun _ => hidle, cycleOps_wf s,
    fun t ht hmoved => (step_writer_of_txd ht hmoved).imp_right cycleOps_timer_eq_some_iff.mp⟩

/-- Settles O37: CSTEP is selected below the compare value only, where CNT does not wrap; with a
period of 1 nothing is below it. -/
theorem cstepNeverWraps : Obligations.CstepNeverWraps := by
  intro s t hs hsel ht
  obtain ⟨-, -, -, hcnt⟩ := (timerSideOperationOfAnEdge s).2.1.mp hsel
  obtain rfl := exec_eq_next_iff.mp ht
  have hcount : (effect .cstep s).cnt = s.cnt + 1 := hs.countUp_cnt hcnt
  have hlt := hs.cnt_lt
  exact ⟨hcount, by omega, by omega⟩

end Sys2Proof.Machine

/-! ## The period formula (42_timing_source.md R149) -/

namespace Sys2Proof

/-- Half a divisor is added before the division, so an exact half is rounded up here. -/
theorem exists_isNearestPeriod {fClk prescaler baud : Nat} (hpos : 0 < prescaler * baud) :
    ∃ p, Config.isNearestPeriod fClk prescaler baud p := by
  generalize hd : prescaler * baud = d at hpos
  refine ⟨(2 * fClk + d) / (2 * d), ?_⟩
  have hdiv := Nat.div_add_mod (2 * fClk + d) (2 * d)
  have hmod := Nat.mod_lt (2 * fClk + d) (Nat.mul_pos Nat.two_pos hpos)
  rw [Nat.mul_assoc, Nat.mul_comm d] at hdiv
  rw [Config.isNearestPeriod, hd]
  omega

/-- Two nearest integers are less than two apart, since each is at most a half away. -/
theorem isNearestPeriod_tie {fClk prescaler baud p q : Nat}
    (hp : Config.isNearestPeriod fClk prescaler baud p)
    (hq : Config.isNearestPeriod fClk prescaler baud q) (hlt : p < q) :
    q = p + 1 ∧ 2 * fClk = (2 * p + 1) * (prescaler * baud) := by
  obtain ⟨hpos, -, hlow⟩ := hp
  obtain ⟨-, hhigh, -⟩ := hq
  generalize prescaler * baud = d at hpos hlow hhigh ⊢
  have hmul : q * d ≤ (p + 1) * d := by
    rw [Nat.add_mul]
    omega
  obtain rfl : q = p + 1 := Nat.le_antisymm (Nat.le_of_mul_le_mul_right hmul hpos) hlt
  rw [Nat.add_mul] at hhigh
  rw [Nat.add_mul, Nat.mul_assoc]
  exact ⟨rfl, by omega⟩

/-- Settles O39: rounding by division gives one, and two of them are neighbours at a half. -/
theorem nearestPeriodExistsAndTies : Obligations.NearestPeriodExistsAndTies :=
  ⟨fun _ _ _ => exists_isNearestPeriod, fun _ _ _ _ _ => isNearestPeriod_tie⟩

end Sys2Proof

/-! ## The event level has no counter (42_timing_source.md R151) -/

namespace Sys2Proof.Machine

theorem eventView_effect_congr {i : Instr} {s t : State} (h : s.eventView = t.eventView) :
    (effect i s).eventView = (effect i t).eventView := by
  obtain ⟨hsr, htxd, hten⟩ := (EventView.mk.injEq ..).mp h
  cases i with
  | init => rw [effect, effect, State.resetElements_eq, State.resetElements_eq]; rfl
  | load c =>
    by_cases hz : s.sr = 0#10
    · rw [effect_load_idle c hz, effect_load_idle c (hsr ▸ hz)]
      simp [State.eventView, State.loadFrame_eq, htxd]
    · rw [effect_load_busy c hz, effect_load_busy c (hsr ▸ hz)]
      exact h
  | tick =>
    simp only [effect, State.endFrame_shiftOut_eq, State.eventView, hsr, hten]
  | poll | cstep | hold | idle => exact h

/-- Whether an operation has a step is settled by TEN, and what it does by the three elements. -/
theorem eventOp_eventView_congr {i : Instr} {s t : State} (h : s.eventView = t.eventView) :
    (eventOp i s).map State.eventView = (eventOp i t).map State.eventView := by
  have hten : s.ten = t.ten := congrArg EventView.ten h
  cases i with
  | init | load c | poll =>
    rw [eventOp_of_host rfl, eventOp_of_host rfl]
    exact congrArg some (eventView_effect_congr h)
  | tick =>
    cases hs : s.ten with
    | false => rw [eventOp_tick_disarmed s hs, eventOp_tick_disarmed t (hten ▸ hs)]
    | true =>
      rw [eventOp_tick_armed s hs, eventOp_tick_armed t (hten ▸ hs)]
      exact congrArg some (eventView_effect_congr (i := .tick) h)
  | cstep | hold | idle => rfl

/-- Settles O44: two runs that agree on SR, TXD and TEN stay so, operation by operation. -/
theorem eventLevelNeedsNoCounter : Obligations.EventLevelNeedsNoCounter := by
  intro ops
  induction ops with
  | nil => exact fun s t h => congrArg some h
  | cons i is ih =>
    intro s t h
    have hop := eventOp_eventView_congr (i := i) h
    cases hs : eventOp i s with
    | none =>
      rw [hs, Option.map_none, eq_comm, Option.map_eq_none_iff] at hop
      rw [eventRun, eventRun, hs, hop]
    | some u =>
      rw [hs, Option.map_some, eq_comm, Option.map_eq_some_iff] at hop
      obtain ⟨v, hv, hview⟩ := hop
      rw [eventRun_cons is hs, eventRun_cons is hv]
      exact ih u v hview.symm

end Sys2Proof.Machine

/-! ## The bit period (42_timing_source.md R148)

After an accepted LOAD the four elements are functions of the number of strobes alone. -/

namespace Sys2Proof.Machine

/-- The four elements `k` strobes after the edge of an accepted LOAD of `c`, with `P` strobes in a
bit period: `k / P` bits are on the wire, and `k % P` strobes of the present period have passed.
With `k = 10 * P` these are the elements of the idle block. -/
def elementsAfterStrobes (P : Nat) (c : Byte) (k : Nat) : Elements :=
  { sr := frame c >>> (k / P)
    txd := if k / P = 0 then true else (frame c).getLsbD (k / P - 1)
    ten := decide (k < 10 * P)
    cnt := k % P }

theorem elementsAfterStrobes_zero {P : Nat} (hP : 0 < P) (c : Byte) :
    elementsAfterStrobes P c 0 = { sr := frame c, txd := true, ten := true, cnt := 0 } := by
  simp [elementsAfterStrobes, hP]

/-- After ten bit periods the stop bit, the last of the frame, is on the wire. -/
theorem elementsAfterStrobes_ten_periods {P : Nat} (hP : 0 < P) (c : Byte) :
    elementsAfterStrobes P c (10 * P) = { sr := 0#10, txd := true, ten := false, cnt := 0 } := by
  have hdrained : frame c >>> 10 = 0#10 := frame_shift_eq_zero_iff.mpr (Nat.le_refl 10)
  simp [elementsAfterStrobes, Nat.mul_div_cancel _ hP, hdrained, frame_stop c]

/-! ### One strobe more -/

theorem div_mod_succ_within_period {P k : Nat} (hP : 0 < P) (hk : k % P ≠ P - 1) :
    (k + 1) / P = k / P ∧ (k + 1) % P = k % P + 1 := by
  have hlt := Nat.mod_lt k hP
  rw [Nat.div_mod_unique hP, Nat.add_right_comm, Nat.mod_add_div]
  exact ⟨rfl, by omega⟩

theorem div_mod_succ_at_period_end {P k : Nat} (hP : 0 < P) (hk : k % P = P - 1) :
    (k + 1) / P = k / P + 1 ∧ (k + 1) % P = 0 := by
  have hsplit := Nat.mod_add_div k P
  rw [Nat.div_mod_unique hP, Nat.mul_succ]
  exact ⟨by omega, hP⟩

/-- CSTEP: below the compare value the strobe counts and no bit is sent. -/
theorem elementsAfterStrobes_succ_within_period {P k : Nat} (hP : 0 < P) (hk : k % P ≠ P - 1)
    (hlt : k < 10 * P) (c : Byte) :
    elementsAfterStrobes P c (k + 1) = { elementsAfterStrobes P c k with cnt := k % P + 1 } := by
  obtain ⟨hdiv, hmod⟩ := div_mod_succ_within_period hP hk
  have hlast : k + 1 ≠ 10 * P := fun h => by
    rw [h, Nat.mul_mod_left] at hmod
    omega
  have harmed : k + 1 < 10 * P := by omega
  simp only [elementsAfterStrobes, hdiv, hmod, hlt, harmed]

/-- TICK: at the compare value the strobe sends bit `k / P` of the frame, and the tenth bit is the
last. -/
theorem elementsAfterStrobes_succ_at_period_end {P k : Nat} (hP : 0 < P) (hk : k % P = P - 1)
    (c : Byte) :
    elementsAfterStrobes P c (k + 1) =
      { sr := frame c >>> (k / P) >>> 1
        txd := (frame c >>> (k / P)).getLsbD 0
        ten := if frame c >>> (k / P) >>> 1 = 0#10 then false else true
        cnt := 0 } := by
  obtain ⟨hdiv, hmod⟩ := div_mod_succ_at_period_end hP hk
  have hdrained : frame c >>> (k / P) >>> 1 = 0#10 ↔ ¬ k + 1 < 10 * P := by
    rw [shift_shift, frame_shift_eq_zero_iff, ← hdiv, ← Nat.div_lt_iff_lt_mul hP, Nat.not_lt]
  rw [elementsAfterStrobes, hdiv, hmod, ← shift_shift, BitVec.getLsbD_ushiftRight]
  simp only [hdrained, ite_not, Bool.if_true_left, Bool.or_false, Nat.add_one_ne_zero, if_false,
    Nat.add_sub_cancel, Nat.add_zero]

/-! ### One edge more -/

theorem step_cfg {s t : State} (ht : step s = .next t) : t.cfg = s.cfg := by
  cases hr : s.ports.rst with
  | true =>
    rw [step_of_rst hr, Host.Outcome.next.injEq] at ht
    rw [← ht, effect_cfg, State.passEdge_cfg]
  | false =>
    rw [step_of_not_rst hr, Host.Outcome.next.injEq] at ht
    rw [← ht, commit, effect_cfg, State.passEdge_cfg]

/-- While a frame is in flight the host's operation only gets its answer. -/
theorem elements_step_of_busy {s t : State} (hr : s.ports.rst = false) (hbusy : s.sr ≠ 0#10)
    (ht : step s = .next t) : t.elements = (effect s.timerOp s.passEdge).elements := by
  have hstep : step s = .next { effect s.timerOp s.passEdge with out := s.outputs false } := by
    cases hreq : s.ports.req with
    | false => exact step_of_poll hr hreq
    | true => exact step_of_load_busy hr hreq hbusy
  rw [← Host.Outcome.next.inj (hstep.symm.trans ht)]
  rfl

theorem strobes_singleton (p : Inputs) : strobes [p] = if p.cke then 1 else 0 := rfl

/-- An edge below the tenth period moves the elements on by its strobe, whatever the host asks. -/
theorem State.Inv.step_elementsAfterStrobes {s t : State} {c : Byte} {k : Nat} (h : s.Inv)
    (hk : k < 10 * s.cfg.bitPeriodTicks)
    (he : s.elements = elementsAfterStrobes s.cfg.bitPeriodTicks c k)
    (hr : s.ports.rst = false) (ht : step s = .next t) :
    t.elements = elementsAfterStrobes s.cfg.bitPeriodTicks c (k + strobes [s.ports]) := by
  have hP := h.one_le_period
  obtain ⟨hsr, -, hten, hcnt⟩ := (Elements.mk.injEq ..).mp he
  have hbusy : s.sr ≠ 0#10 := by
    rw [hsr, Ne, frame_shift_eq_zero_iff, Nat.not_le]
    exact (Nat.div_lt_iff_lt_mul hP).mpr hk
  have harmed : s.ten = true := h.ten_of_busy hbusy
  rw [elements_step_of_busy hr hbusy ht, strobes_singleton]
  obtain ⟨hidle, -⟩ | ⟨-, hcke, hop⟩ | ⟨-, hcke, hbelow, hop⟩ | ⟨-, hcke, hmatch, hop⟩ :=
    timerOp_cases s
  · exact absurd (harmed.symm.trans hidle) nofun
  · rw [hop, hcke]
    exact he
  · rw [hop, hcke, if_pos rfl,
      elementsAfterStrobes_succ_within_period hP (hcnt ▸ hbelow) hk, ← he, ← hcnt,
      ← h.countUp_cnt hbelow]
    rfl
  · rw [hop, hcke, if_pos rfl, elementsAfterStrobes_succ_at_period_end hP (hcnt ▸ hmatch),
      elements_effect_tick, State.passEdge_sr, State.passEdge_ten, hsr, harmed]

/-! ### A run of edges -/

theorem strobes_cons (p : Inputs) (ps : List Inputs) :
    strobes (p :: ps) = strobes [p] + strobes ps := strobes_append [p] ps

/-- Edges that stay below the tenth period move the elements on by their strobes. -/
theorem State.Inv.exists_runEdges_elementsAfterStrobes {ps : List Inputs} {s : State} {c : Byte}
    {k : Nat} (h : s.Inv) (hk : k + strobes ps < 10 * s.cfg.bitPeriodTicks)
    (he : s.elements = elementsAfterStrobes s.cfg.bitPeriodTicks c k)
    (hrst : ∀ q ∈ ps, q.rst = false) :
    ∃ t, runEdges ps s = some t ∧ t.Inv ∧ t.cfg = s.cfg ∧
      t.elements = elementsAfterStrobes s.cfg.bitPeriodTicks c (k + strobes ps) := by
  induction ps generalizing s k with
  | nil => exact ⟨s, rfl, h, rfl, he⟩
  | cons p ps ih =>
    obtain ⟨hp, hps⟩ := List.forall_mem_cons.mp hrst
    rw [strobes_cons, ← Nat.add_assoc] at hk ⊢
    obtain ⟨u, hu⟩ := step_total { s with inputs := [p] }
    have hcfg : u.cfg = s.cfg := step_cfg (s := { s with inputs := [p] }) hu
    have helements : u.elements = elementsAfterStrobes s.cfg.bitPeriodTicks c (k + strobes [p]) :=
      (h.with_inputs [p]).step_elementsAfterStrobes (by simp only; omega) he hp hu
    rw [← hcfg] at hk helements ⊢
    rw [runEdges_cons ps hu]
    exact ih (stepKeepsInvariant _ u (h.with_inputs [p]) hu) hk helements hps

/-- The run that begins with the edge of an accepted LOAD. -/
theorem State.Inv.exists_runEdges_load {p : Inputs} {ps : List Inputs} {s : State} (h : s.Inv)
    (hz : s.sr = 0#10) (hr : p.rst = false) (hreq : p.req = true)
    (hrst : ∀ q ∈ ps, q.rst = false) (hk : strobes ps < 10 * s.cfg.bitPeriodTicks) :
    ∃ t, runEdges (p :: ps) s = some t ∧ t.Inv ∧ t.cfg = s.cfg ∧
      t.elements = elementsAfterStrobes s.cfg.bitPeriodTicks p.din (strobes ps) := by
  obtain ⟨u, hu, -, helements⟩ := (h.with_inputs [p]).step_of_load_idle hr hreq hz
  have hcfg : u.cfg = s.cfg := step_cfg (s := { s with inputs := [p] }) hu
  have hinv : u.Inv := stepKeepsInvariant _ u (h.with_inputs [p]) hu
  rw [runEdges_cons ps hu, ← hcfg]
  rw [← Nat.zero_add (strobes ps)] at hk ⊢
  exact hinv.exists_runEdges_elementsAfterStrobes (hcfg ▸ hk)
    (helements.trans (elementsAfterStrobes_zero hinv.one_le_period _).symm) hrst

/-- Settles O46: below ten periods the four elements are those of `elementsAfterStrobes`, and the
edge of the (10 P)-th strobe takes them one strobe further, to those of the idle block. -/
theorem bitPeriodInStrobes : Obligations.BitPeriodInStrobes := by
  intro s p ps hs hz hr hreq hrst
  refine ⟨fun hk => ?inflight, fun qs q hps hcke hk => ?drained⟩
  case inflight =>
    obtain ⟨t, ht, -, -, he⟩ := hs.exists_runEdges_load hz hr hreq hrst hk
    obtain ⟨hsr, htxd, hten, hcnt⟩ := (Elements.mk.injEq ..).mp he
    exact ⟨t, ht, hsr, hcnt, hten.trans (decide_eq_true hk), htxd⟩
  case drained =>
    subst hps
    obtain ⟨hqs, hq⟩ := List.forall_mem_append.mp hrst
    have hone : strobes [q] = 1 := by rw [strobes_singleton, if_pos hcke]
    have hlt : strobes qs < 10 * s.cfg.bitPeriodTicks := by
      rw [← hk, strobes_append, hone]
      exact Nat.lt_succ_self _
    obtain ⟨t, ht, hinv, hcfg, he⟩ := hs.exists_runEdges_load hz hr hreq hqs hlt
    obtain ⟨u, hu⟩ := step_total { t with inputs := [q] }
    rw [← hcfg] at hlt hk he
    have helements := (hinv.with_inputs [q]).step_elementsAfterStrobes hlt he
      (hq q (List.mem_singleton_self q)) hu
    rw [strobes_append] at hk
    refine ⟨u, ?_, ?_⟩
    · rw [← List.cons_append, runEdges_append, ht]
      exact runEdges_cons [] hu
    · exact helements.trans (hk ▸ elementsAfterStrobes_ten_periods hinv.one_le_period p.din)

end Sys2Proof.Machine

/-! ## What the ports show of an edge (43_cycle_step.md R163) -/

namespace Sys2Proof.Machine

/-- The port `acc` of the coming edge. -/
def State.accPort (s : State) : Bool := !s.ports.rst && s.ports.req && s.accepts

theorem accOf_hostOp (s : State) : accOf s.hostOp s.passEdge = (s.ports.req && s.accepts) := by
  cases hreq : s.ports.req with
  | false => rw [hostOp_of_not_req hreq]; rfl
  | true => rw [hostOp_of_req hreq]; rfl

theorem step_out {s t : State} (ht : step s = .next t) : t.out = s.outputs s.accPort := by
  cases hr : s.ports.rst with
  | true =>
    rw [step_of_rst hr, Host.Outcome.next.injEq] at ht
    rw [← ht, State.accPort, hr]
    rfl
  | false =>
    rw [step_out_of_not_rst hr ht, effect_out_of_host _ (hostOp_side s), accOf_hostOp,
      State.accPort, hr]
    rfl

theorem rspWord_bits (r : Response) :
    (rspWord r).getLsbD 2 = r.acc ∧ (rspWord r).getLsbD 1 = r.busy ∧
      (rspWord r).getLsbD 0 = r.txd := by
  obtain ⟨acc, busy, txd⟩ := r
  revert acc busy txd
  decide

/-- Settles O29: an edge records the three output ports, and the response word is their bits. -/
theorem outputsOfACycle : Obligations.OutputsOfACycle := by
  intro s
  obtain ⟨t, ht⟩ := step_total s
  exact ⟨t, ht, step_out ht, rspWord_bits t.out⟩

end Sys2Proof.Machine

/-! ## The operations of an edge are those its two words decode to (30_encoding.md R81) -/

namespace Sys2Proof.Machine

theorem selectOps_of_init {cw : CmdWord} (hcw : decodeCW cw = .init) (ev : EvWord) :
    selectOps cw ev = { host := .init, timer := none } := by
  rw [selectOps, hcw]

theorem selectOps_of_ne_init {cw : CmdWord} (hcw : decodeCW cw ≠ .init) (ev : EvWord) :
    selectOps cw ev = { host := decodeCW cw, timer := some (decodeEV ev) } := by
  unfold selectOps
  split
  · next hinit => exact absurd hinit hcw
  · rfl

/-- Settles O26: `runOps` runs INIT alone, and the two operations of any other edge both from the
state it is given, to `commit` them together. -/
theorem stepRunsDecodedOperations : Obligations.StepRunsDecodedOperations := by
  constructor
  · intro s hinit
    rw [step_eq_runOps, State.cycleOps, selectOps_of_init hinit, runOps_none]
  · rintro s sh st h t rfl hinit rfl hhost htimer
    rw [step_eq_runOps, State.cycleOps, selectOps_of_ne_init hinit, runOps_some hhost htimer]
    rfl

end Sys2Proof.Machine

/-! ## The step is the spec's step function (43_cycle_step.md R166, R168) -/

namespace Sys2Proof.Machine

/-! ### The pseudocode, part by part -/

/-- The elements as the timer side of R166 alone leaves them; `edgeByR166_fst_of_not_rst` finds this
part in the pseudocode. -/
def timerByR166 (P w : Nat) (S : Elements) (cke : Bool) : Elements :=
  if S.ten && cke && decide (S.cnt = P - 1) then
    { sr := S.sr >>> 1
      txd := S.sr.getLsbD 0
      ten := if S.sr >>> 1 = 0#10 then false else S.ten
      cnt := 0 }
  else if S.ten && cke then { S with cnt := (S.cnt + 1) % 2 ^ w }
  else S

theorem edgeByR166_fst_of_rst {P w : Nat} {S : Elements} {p : Inputs} (hr : p.rst = true) :
    (edgeByR166 P w S p).1 = { sr := 0#10, txd := true, ten := false, cnt := 0 } := by
  rw [edgeByR166, if_pos hr]

theorem edgeByR166_fst_of_not_rst {P w : Nat} {S : Elements} {p : Inputs} (hr : p.rst = false) :
    (edgeByR166 P w S p).1 =
      if p.req && decide (S.sr = 0#10) then
        { timerByR166 P w S p.cke with sr := frame p.din, ten := true }
      else timerByR166 P w S p.cke := by
  simp only [edgeByR166, hr, Bool.not_false, Bool.true_and, Bool.false_eq_true, if_false,
    apply_ite Prod.fst]
  rfl

theorem edgeByR166_snd (P w : Nat) (s : State) :
    (edgeByR166 P w s.elements s.ports).2 = s.outputs s.accPort := by
  simp only [edgeByR166, apply_ite Prod.snd, ite_self]
  rfl

/-! ### The machine, part by part -/

theorem elements_effect_timerOp (s : State) :
    (effect s.timerOp s.passEdge).elements =
      timerByR166 s.cfg.bitPeriodTicks (cntW s.cfg) s.elements s.ports.cke := by
  obtain ⟨hten, hop⟩ | ⟨hten, hcke, hop⟩ | ⟨hten, hcke, hcnt, hop⟩ | ⟨hten, hcke, hcnt, hop⟩ :=
    timerOp_cases s
  · simp [hop, effect, timerByR166, State.elements, hten]
  · simp [hop, effect, timerByR166, State.elements, hcke]
  · simp [hop, effect, timerByR166, State.elements, hten, hcke, hcnt, State.countUp_eq]
  · rw [hop, elements_effect_tick]
    simp [timerByR166, State.elements, hten, hcke, hcnt]

/-- The writes of an accepted LOAD win over the timer side's, and any other host operation has
none. -/
theorem elements_step_of_not_rst {s t : State} (hr : s.ports.rst = false) (ht : step s = .next t) :
    t.elements =
      if s.ports.req && s.accepts then
        { (effect s.timerOp s.passEdge).elements with sr := frame s.ports.din, ten := true }
      else (effect s.timerOp s.passEdge).elements := by
  have hacc : (effect s.hostOp s.passEdge).out.acc = (s.ports.req && s.accepts) := by
    rw [effect_out_of_host _ (hostOp_side s), accOf_hostOp]
    rfl
  rw [step_of_not_rst hr, Host.Outcome.next.injEq] at ht
  rw [← hacc, ← ht]
  cases ha : (effect s.hostOp s.passEdge).out.acc with
  | false =>
    rw [commit_of_not_acc _ _ ha]
    rfl
  | true =>
    obtain ⟨hz, hreq⟩ := hostOp_accepted ha
    rw [commit_of_acc _ _ ha, hostOp_of_req hreq, effect_load_idle (s := s.passEdge) _ hz]
    rfl

theorem elements_step {s t : State} (ht : step s = .next t) :
    t.elements = (edgeByR166 s.cfg.bitPeriodTicks (cntW s.cfg) s.elements s.ports).1 := by
  cases hr : s.ports.rst with
  | true => rw [elements_step_of_rst hr ht, edgeByR166_fst_of_rst hr]
  | false =>
    rw [elements_step_of_not_rst hr ht, edgeByR166_fst_of_not_rst hr, elements_effect_timerOp]
    rfl

/-- The edge is counted and its port values are used up. -/
theorem step_inputs_edges {s t : State} (ht : step s = .next t) :
    t.inputs = s.inputs.tail ∧ t.edges = s.edges + 1 := by
  cases hr : s.ports.rst with
  | true =>
    rw [step_of_rst hr, Host.Outcome.next.injEq] at ht
    exact ht ▸ (effect_frame .init s.passEdge).2
  | false =>
    rw [step_of_not_rst hr, Host.Outcome.next.injEq] at ht
    exact ht ▸ (effect_frame s.timerOp s.passEdge).2

/-- Settles O28: the branches of R166 are INIT, and the timer side with an accepted LOAD written
over it; `commit` lets the LOAD win in the clash of R168 too. -/
theorem stepIsTheSpecsStepFunction : Obligations.StepIsTheSpecsStepFunction := by
  intro s
  obtain ⟨t, ht⟩ := step_total s
  exact ⟨t, ht, Prod.ext (elements_step ht) ((step_out ht).trans (edgeByR166_snd _ _ s).symm),
    step_cfg ht, step_inputs_edges ht⟩

end Sys2Proof.Machine

/-! ## A clock edge is its event-level operations in order (43_cycle_step.md R170) -/

namespace Sys2Proof.Machine

/-- The state the event-level operations of an edge without INIT lead to, the host's first;
`eventRun_edgeEvents` ties it to `edgeEvents`. -/
def State.afterEvents (s : State) : State :=
  if s.timerOp = .tick then effect .tick (effect s.hostOp s) else effect s.hostOp s

theorem edgeEvents_of_rst {s : State} (hr : s.ports.rst = true) : s.edgeEvents = [.init] := by
  rw [State.edgeEvents, if_pos hr]

theorem edgeEvents_of_not_rst {s : State} (hr : s.ports.rst = false) :
    s.edgeEvents = s.hostOp :: if s.timerOp = .tick then [.tick] else [] := by
  obtain ⟨htick, -⟩ := timerOp_eq_iff s
  simp [State.edgeEvents, hr, State.hostOp, htick, and_assoc]

/-- The host's operation leaves an armed block armed, so a TICK selected before it has its step
after it. -/
theorem eventRun_edgeEvents {s : State} (hr : s.ports.rst = false) :
    eventRun s.edgeEvents s = some s.afterEvents := by
  rw [edgeEvents_of_not_rst hr, eventRun_cons _ (eventOp_of_host (hostOp_side s) s),
    State.afterEvents]
  split
  case isTrue htick =>
    obtain ⟨hten, -⟩ := (timerOp_eq_iff s).1.mp htick
    have harmed := effect_ten_of_host (hostOp_side s) (hostOp_ne_init s) hten
    exact eventRun_cons [] (eventOp_tick_armed _ harmed)
  case isFalse => rfl

theorem afterEvents_out (s : State) : s.afterEvents.out = (effect s.hostOp s).out := by
  rw [State.afterEvents]
  split
  · exact effect_out_of_timer _ nofun
  · rfl

/-- CSTEP, HOLD and IDLE do not exist at the event level. -/
theorem eventView_effect_of_timer {i : Instr} (s : State) (hi : i.side = .timer)
    (htick : i ≠ .tick) : (effect i s).eventView = s.eventView := by
  cases i with
  | tick => exact absurd rfl htick
  | cstep | hold | idle => rfl
  | init | load c | poll => exact absurd hi nofun

/-- The answer to a host operation shows no more of the state than the event level has. -/
theorem effect_out_congr {i : Instr} {s t : State} (hi : i.side = .host)
    (h : s.eventView = t.eventView) : (effect i s).out = (effect i t).out := by
  obtain ⟨hsr, htxd, -⟩ := (EventView.mk.injEq ..).mp h
  have haccepts : s.accepts = t.accepts := by rw [State.accepts, State.accepts, hsr]
  have hacc : accOf i s = accOf i t := by
    cases i with
    | load c => exact haccepts
    | init | poll | tick | cstep | hold | idle => rfl
  rw [effect_out_of_host s hi, effect_out_of_host t hi, hacc]
  simp only [State.outputs, State.busy, hsr, htxd]

/-- In an idle block the timer side is IDLE and the edge is the host's operation alone; in a busy
one the host's operation writes nothing and the edge is the timer's alone. -/
theorem State.Inv.eventView_step {s t : State} (h : s.Inv) (hr : s.ports.rst = false)
    (ht : step s = .next t) : t.eventView = s.afterEvents.eventView := by
  rw [step_of_not_rst hr, Host.Outcome.next.injEq] at ht
  rw [← ht, State.afterEvents]
  by_cases hz : s.sr = 0#10
  · rw [timerOp_of_disarmed (h.idle_iff.mp hz), if_neg nofun]
    have hhost := commit_effect_of_host s.passEdge (hostOp_side s) (hostOp_ne_init s)
    exact (congrArg State.eventView hhost).trans (eventView_effect_congr rfl)
  · have hhost (u : State) (hu : u.sr = s.sr) : effect s.hostOp u = u.respond false :=
      effect_of_host_busy (hostOp_side s) (hostOp_ne_init s) (hu ▸ hz)
    rw [hhost s.passEdge rfl, hhost s rfl, commit_of_not_acc _ _ rfl]
    split
    case isTrue htick =>
      rw [htick]
      exact eventView_effect_congr (i := .tick) (s := s.passEdge) rfl
    case isFalse htick => exact eventView_effect_of_timer _ (timerOp_side s) htick

/-- The answer is the host operation's, from the state before the edge. -/
theorem step_out_eq_afterEvents {s t : State} (hr : s.ports.rst = false) (ht : step s = .next t) :
    t.out = s.afterEvents.out := by
  rw [step_out_of_not_rst hr ht, afterEvents_out]
  exact effect_out_congr (hostOp_side s) rfl

/-- Settles O45: an INIT edge is INIT, and any other edge shows what its events lead to. -/
theorem clockEdgeRefinesEventLevel : Obligations.ClockEdgeRefinesEventLevel := by
  intro s t hs ht
  cases hr : s.ports.rst with
  | true =>
    rw [step_of_rst hr, Host.Outcome.next.injEq] at ht
    rw [edgeEvents_of_rst hr, ← ht]
    exact ⟨effect .init s, rfl, eventView_effect_congr rfl, effect_out_congr rfl rfl⟩
  | false =>
    exact ⟨s.afterEvents, eventRun_edgeEvents hr, (hs.eventView_step hr ht).symm,
      (step_out_eq_afterEvents hr ht).symm⟩

end Sys2Proof.Machine

/-! ## A host procedure on the ports (43_cycle_step.md R169, R170) -/

namespace Sys2Proof.Machine

theorem HostProc.request_ne_init (p : HostProc) : p.request ≠ .init := by
  cases p <;> nofun

theorem Bench.edge_of_step {b : Bench} {cke : Bool} {t : State}
    (ht : step (b.driven cke) = .next t) :
    b.edge cke =
      { proc := b.proc.answered t.out
        block := t
        wire := if (b.driven cke).cycleOps.timer = some .tick then b.wire ++ [t.txd]
          else b.wire } := by
  rw [Bench.edge, ht, nextOf]

theorem Bench.rst_driven (b : Bench) (cke : Bool) : (b.driven cke).ports.rst = false := by
  obtain ⟨p, s, w⟩ := b
  cases p <;> rfl

/-- The procedure's ports select the operation it issues. -/
theorem Bench.hostOp_driven (b : Bench) (cke : Bool) : (b.driven cke).hostOp = b.proc.request := by
  obtain ⟨p, s, w⟩ := b
  cases p <;> rfl

theorem Bench.turn_timer_armed {b : Bench} (hten : b.block.ten = true) :
    b.turn .timer =
      { b with
        block := effect .tick b.block
        wire := b.wire ++ [(effect .tick b.block).txd] } := by
  rw [Bench.turn, eventOp_tick_armed _ hten]
  rfl

/-- The events of the edge, from the block as it stands without the driven ports. -/
theorem Bench.eventView_afterEvents_driven (b : Bench) (cke : Bool) :
    (b.driven cke).afterEvents.eventView =
      (if (b.driven cke).timerOp = .tick then effect .tick (effect b.proc.request b.block)
        else effect b.proc.request b.block).eventView := by
  have hhost : (effect b.proc.request (b.driven cke)).eventView =
      (effect b.proc.request b.block).eventView := eventView_effect_congr rfl
  rw [State.afterEvents, hostOp_driven]
  split
  · exact eventView_effect_congr hhost
  · exact hhost

theorem Bench.out_afterEvents_driven (b : Bench) (cke : Bool) :
    (b.driven cke).afterEvents.out = (effect b.proc.request b.block).out := by
  rw [afterEvents_out, hostOp_driven]
  exact effect_out_congr b.proc.request_side rfl

/-- Settles O52: the edge shows what its events lead to, and those are the two turns. -/
theorem hostProcedureOnThePorts : Obligations.HostProcedureOnThePorts := by
  rintro b cke ts hs rfl
  have hr := b.rst_driven cke
  obtain ⟨t, ht⟩ := step_total (b.driven cke)
  have hinv : (b.driven cke).Inv := hs.with_inputs _
  have hview := (hinv.eventView_step hr ht).trans (b.eventView_afterEvents_driven cke)
  have hout := (step_out_eq_afterEvents hr ht).trans (b.out_afterEvents_driven cke)
  have hsel : (b.driven cke).cycleOps.timer = some .tick ↔ (b.driven cke).timerOp = .tick := by
    rw [cycleOps_timer_eq_some_iff, hr, eq_self, true_and]
  rw [Bench.edge_of_step ht, hout, Bench.run, Bench.turn_host]
  by_cases htick : (b.driven cke).timerOp = .tick
  case pos =>
    obtain ⟨hten, -⟩ := (timerOp_eq_iff _).1.mp htick
    have harmed : (effect b.proc.request b.block).ten = true :=
      effect_ten_of_host b.proc.request_side b.proc.request_ne_init hten
    rw [if_pos htick] at hview
    have htxd : t.txd = _ := congrArg EventView.txd hview
    rw [if_pos (hsel.mpr htick), if_pos (hsel.mpr htick), Bench.run, Bench.run,
      Bench.turn_timer_armed harmed, htxd]
    exact ⟨rfl, rfl, hview⟩
  case neg =>
    rw [if_neg htick] at hview
    rw [if_neg (hsel.not.mpr htick), if_neg (hsel.not.mpr htick)]
    exact ⟨rfl, rfl, hview⟩

end Sys2Proof.Machine

/-! ## No operation faults (60_exceptions.md R180) -/

namespace Sys2Proof.Machine

/-- Settles O11: `Fault` has no constructor, and `effect` is the next state of every operation. -/
theorem noOperationFaults : Obligations.NoOperationFaults := by
  constructor
  · exact fun fault => nomatch fault
  · intro i s
    exact ⟨effect i s, exec_eq_effect i s⟩

end Sys2Proof.Machine

/-! ## INIT and the reset state (70_reset_and_hazards.md R210 to R213) -/

namespace Sys2Proof.Machine

/-- Settles O1: the answer is formed from the state before the elements are reset, and CNT's reset
value 0 fits every width. -/
theorem initBringsResetState : Obligations.InitBringsResetState := by
  intro s
  rw [exec_init, State.resetElements_eq]
  rfl

/-- Settles O24: the parameter enters none of the reset values. -/
theorem resetStateValues : Obligations.ResetStateValues :=
  ⟨fun _ => ⟨rfl, rfl, rfl⟩, rfl⟩

theorem accPort_of_rst {s : State} (hr : s.ports.rst = true) : s.accPort = false := by
  rw [State.accPort, hr]
  rfl

/-- Settles O30: an edge with rst = 1 performs INIT alone, and its `acc` port is low. -/
theorem initExcludesEveryOtherOperation : Obligations.InitExcludesEveryOtherOperation := by
  intro s hr
  obtain ⟨t, ht⟩ := step_total s
  have hacc : t.out.acc = false := by rw [step_out ht, State.outputs, accPort_of_rst hr]
  exact ⟨t, ht, elements_step_of_rst hr ht, hacc, cycleOps_of_rst hr⟩

end Sys2Proof.Machine

/-! ## The stop bit back to back (70_reset_and_hazards.md R222) -/

namespace Sys2Proof.Machine

/-- An edge that finds the block idle and no request leaves it idle. -/
theorem State.Inv.step_sr_of_idle_poll {s t : State} (h : s.Inv) (hr : s.ports.rst = false)
    (hreq : s.ports.req = false) (hz : s.sr = 0#10) (ht : step s = .next t) : t.sr = 0#10 := by
  rw [step_of_poll hr hreq, timerOp_of_disarmed (h.idle_iff.mp hz), Host.Outcome.next.injEq] at ht
  rw [← ht]
  exact hz

/-- Settles O47, by induction on the edges: until the first request the block stays idle, and the
strobes left after an accepted LOAD do not reach its first TICK (42_timing_source.md R148). -/
theorem stopBitLastsABitPeriod : Obligations.StopBitLastsABitPeriod := by
  intro s ps hs hz hrst hlt
  induction ps generalizing s with
  | nil => exact ⟨s, rfl, hs.idle_high hz⟩
  | cons p ps ih =>
    obtain ⟨hp, hps⟩ := List.forall_mem_cons.mp hrst
    have hrest : strobes ps < s.cfg.bitPeriodTicks := by
      rw [strobes_cons] at hlt
      omega
    cases hreq : p.req with
    | true =>
      obtain ⟨t, ht, -, -, -, htxd⟩ := (bitPeriodInStrobes s p ps hs hz hp hreq hps).1 (by omega)
      exact ⟨t, ht, by rw [htxd, if_pos (Nat.div_eq_of_lt hrest)]⟩
    | false =>
      obtain ⟨u, hu⟩ := step_total { s with inputs := [p] }
      have hin : ({ s with inputs := [p] } : State).Inv := hs.with_inputs [p]
      have hcfg : u.cfg = s.cfg := step_cfg (s := { s with inputs := [p] }) hu
      rw [runEdges_cons ps hu]
      exact ih u (stepKeepsInvariant _ u hin hu) (hin.step_sr_of_idle_poll hp hreq hz hu) hps
        (hcfg ▸ hrest)

end Sys2Proof.Machine
